-- ==== Sys2Proof/Word.lean ====
section
/-! DEFINITION. The word types of the engine (spec/00_scope.md R7; spec/20_memory.md R50; spec/30_encoding.md R80). -/

namespace Sys2Proof

/-- u8: the bus data width and every one-byte field (R6 BUS_DATA_BITS, R7). -/
abbrev Byte := BitVec 8

/-- u16: checksums, lengths, counters and two-byte fields (R6, R7). -/
abbrev U16 := BitVec 16

/-- u32: the four-byte fields (R7, R28). -/
abbrev U32 := BitVec 32

/-- A bus address, 0x000..0x1FF (R6 BUS_ADDR_BITS, R50). -/
abbrev Addr := BitVec 9

/-- A host transaction packed in one 18-bit word (R80). -/
abbrev TxWord := BitVec 18

end Sys2Proof
end

