-- ==== Sys2Proof/Syntax.lean ====
section
/-! DEFINITION. The engine's instructions: one constructor per row of spec/opcode_table.json.
An instruction is one host transaction (spec/30_encoding.md R80, R87).
The five CMD_RSVD rows split the reserved opcodes and the nine WR_RO rows the non-writable addresses (R84, R85). -/

namespace Sys2Proof

/-- A host transaction.  `d` is the data byte D, bits 7:0, and `a` the address A, bits 16:8 (R80). -/
inductive Instr where
  /-- NOP: command 0x00 (R270). -/
  | nop
  /-- CRC_INIT: command 0x01 (R163). -/
  | crcInit
  /-- FRAME_CLEAR: command 0x02 (R271). -/
  | frameClear
  /-- VALIDATE: command 0x03 (R183). -/
  | validate
  /-- DECODE: command 0x04 (R220). -/
  | decode
  /-- PROJECT: command 0x05 (R255). -/
  | project
  /-- PROCESS: command 0x06 (R272). -/
  | process
  /-- RESET: command 0x07 (R273). -/
  | reset
  /-- CMD_RSVD, opcodes 0x08..0x0F (R274). -/
  | cmdRsvd08_0F (d : Byte)
  /-- CMD_RSVD, opcodes 0x10..0x1F (R274). -/
  | cmdRsvd10_1F (d : Byte)
  /-- CMD_RSVD, opcodes 0x20..0x3F (R274). -/
  | cmdRsvd20_3F (d : Byte)
  /-- CMD_RSVD, opcodes 0x40..0x7F (R274). -/
  | cmdRsvd40_7F (d : Byte)
  /-- CMD_RSVD, opcodes 0x80..0xFF (R274). -/
  | cmdRsvd80_FF (d : Byte)
  /-- WR_ERR: write 0x102, mask `d` (R144). -/
  | wrErr (d : Byte)
  /-- WR_FRAME_DATA: write 0x103 (R142). -/
  | wrFrameData (d : Byte)
  /-- WR_CRC_DATA: write 0x106 (R164). -/
  | wrCrcData (d : Byte)
  /-- WR_RO, the frame window 0x000..0x0FF (R145). -/
  | wrRo000_0FF (a : Addr) (d : Byte)
  /-- WR_RO, STATUS 0x101 (R145). -/
  | wrRo101 (d : Byte)
  /-- WR_RO, FRAME_LEN 0x104..0x105 (R145). -/
  | wrRo104_105 (a : Addr) (d : Byte)
  /-- WR_RO, the unmapped 0x107 (R145). -/
  | wrRo107 (d : Byte)
  /-- WR_RO, 0x108..0x10F (R145). -/
  | wrRo108_10F (a : Addr) (d : Byte)
  /-- WR_RO, 0x110..0x11F (R145). -/
  | wrRo110_11F (a : Addr) (d : Byte)
  /-- WR_RO, 0x120..0x13F (R145). -/
  | wrRo120_13F (a : Addr) (d : Byte)
  /-- WR_RO, 0x140..0x17F (R145). -/
  | wrRo140_17F (a : Addr) (d : Byte)
  /-- WR_RO, 0x180..0x1FF (R145). -/
  | wrRo180_1FF (a : Addr) (d : Byte)
  /-- RD: read the byte at `a`; the data byte `d` of the word is ignored (R140, R80). -/
  | rd (a : Addr) (d : Byte)
  deriving DecidableEq, Repr

end Sys2Proof
end

