-- ==== Sys2Proof/WellFormed.lean ====
section
/-! DEFINITION. When a term of `Instr` stands for a row's word: each operand lies in its row's range
(spec/30_encoding.md R84, R85; the masks of spec/opcode_table.json). -/

namespace Sys2Proof

/-- `lo ≤ v ≤ hi` on the unsigned value. -/
def inRange {w : Nat} (lo hi : Nat) (v : BitVec w) : Bool :=
  decide (lo ≤ v.toNat) && decide (v.toNat ≤ hi)

/-- Every operand is one that the row's encoding admits (R84 for D, R85 for A). -/
def Instr.wellFormed : Instr → Bool
  | .nop => true
  | .crcInit => true
  | .frameClear => true
  | .validate => true
  | .decode => true
  | .project => true
  | .process => true
  | .reset => true
  | .cmdRsvd08_0F d => inRange 0x08 0x0F d
  | .cmdRsvd10_1F d => inRange 0x10 0x1F d
  | .cmdRsvd20_3F d => inRange 0x20 0x3F d
  | .cmdRsvd40_7F d => inRange 0x40 0x7F d
  | .cmdRsvd80_FF d => inRange 0x80 0xFF d
  | .wrErr _ => true
  | .wrFrameData _ => true
  | .wrCrcData _ => true
  | .wrRo000_0FF a _ => inRange 0x000 0x0FF a
  | .wrRo101 _ => true
  | .wrRo104_105 a _ => inRange 0x104 0x105 a
  | .wrRo107 _ => true
  | .wrRo108_10F a _ => inRange 0x108 0x10F a
  | .wrRo110_11F a _ => inRange 0x110 0x11F a
  | .wrRo120_13F a _ => inRange 0x120 0x13F a
  | .wrRo140_17F a _ => inRange 0x140 0x17F a
  | .wrRo180_1FF a _ => inRange 0x180 0x1FF a
  | .rd _ _ => true

end Sys2Proof
end

