-- ==== Sys2Proof/Decode.lean ====
section
/-! DEFINITION. The decoder and the encoder of the 18-bit transaction word (spec/30_encoding.md R80 to R87),
and the rows of spec/opcode_table.json as data.
The decoder follows the dispatch of R80, R83, R84 and R85; the table stands beside it and is compared with it. -/

namespace Sys2Proof

/-! ### The fields of the word (R80) -/

/-- Bit 17, W: 1 = write, 0 = read (R80). -/
def txWrite (t : TxWord) : Bool := t.getLsbD 17

/-- Bits 16:8, the address A (R80). -/
def txAddr (t : TxWord) : Addr := t.extractLsb' 8 9

/-- Bits 7:0, the data byte D (R80). -/
def txData (t : TxWord) : Byte := t.extractLsb' 0 8

/-- The packed form `W ++ A ++ D` (R80). -/
def packWord (w : Bool) (a : Addr) (d : Byte) : TxWord := (BitVec.ofBool w ++ a) ++ d

/-! ### Decoding -/

/-- A write of `d` to CMD selects the command of R83, or the reserved row of R84 that holds `d`. -/
def decodeCommand (d : Byte) : Instr :=
  if d = 0x00#8 then .nop
  else if d = 0x01#8 then .crcInit
  else if d = 0x02#8 then .frameClear
  else if d = 0x03#8 then .validate
  else if d = 0x04#8 then .decode
  else if d = 0x05#8 then .project
  else if d = 0x06#8 then .process
  else if d = 0x07#8 then .reset
  else if d.toNat ≤ 0x0F then .cmdRsvd08_0F d
  else if d.toNat ≤ 0x1F then .cmdRsvd10_1F d
  else if d.toNat ≤ 0x3F then .cmdRsvd20_3F d
  else if d.toNat ≤ 0x7F then .cmdRsvd40_7F d
  else .cmdRsvd80_FF d

/-- A write to a non-writable address: the WR_RO row whose range holds it (R85).
Used only after the writable addresses 0x100, 0x102, 0x103 and 0x106 are taken out. -/
def decodeReadOnlyWrite (a : Addr) (d : Byte) : Instr :=
  if a.toNat ≤ 0x0FF then .wrRo000_0FF a d
  else if a.toNat ≤ 0x101 then .wrRo101 d
  else if a.toNat ≤ 0x105 then .wrRo104_105 a d
  else if a.toNat ≤ 0x107 then .wrRo107 d
  else if a.toNat ≤ 0x10F then .wrRo108_10F a d
  else if a.toNat ≤ 0x11F then .wrRo110_11F a d
  else if a.toNat ≤ 0x13F then .wrRo120_13F a d
  else if a.toNat ≤ 0x17F then .wrRo140_17F a d
  else .wrRo180_1FF a d

/-- The dispatch of R80 on the three fields. -/
def decodeFieldsOfWord (w : Bool) (a : Addr) (d : Byte) : Instr :=
  if w = false then .rd a d
  else if a = 0x100#9 then decodeCommand d
  else if a = 0x102#9 then .wrErr d
  else if a = 0x103#9 then .wrFrameData d
  else if a = 0x106#9 then .wrCrcData d
  else decodeReadOnlyWrite a d

/-- The decoder: total on the 2^18 transaction words (R86). -/
def decodeWord (t : TxWord) : Instr := decodeFieldsOfWord (txWrite t) (txAddr t) (txData t)

/-- Why a bit pattern is no transaction. -/
inductive DecodeReject where
  /-- It does not fit the 18 bits of a transaction word (R87: "Every transaction is one 18-bit word").  Safe. -/
  | widerThanTransactionWord
  deriving DecidableEq, Repr

/-- The decoder on any bit pattern: only a pattern wider than a word is rejected, by name (R86, R87). -/
def decodeBits (w : Nat) : Except DecodeReject Instr :=
  if w < 2 ^ 18 then .ok (decodeWord (BitVec.ofNat 18 w)) else .error .widerThanTransactionWord

/-- The instruction the decoder reads from a word numbered as the opcode table numbers it.
The table's rows are 18 bits, bit 0 the least significant; the missing high bits of a shorter `nbits` are 0. -/
def decodeTableWord (_nbits w : Nat) : Option Instr :=
  match decodeBits w with
  | .ok i => some i
  | .error _ => none

/-! ### Encoding -/

/-- The word of an instruction, from the encodings of R80, R83 and R85. -/
def encodeWord : Instr → TxWord
  | .nop => packWord true 0x100#9 0x00#8
  | .crcInit => packWord true 0x100#9 0x01#8
  | .frameClear => packWord true 0x100#9 0x02#8
  | .validate => packWord true 0x100#9 0x03#8
  | .decode => packWord true 0x100#9 0x04#8
  | .project => packWord true 0x100#9 0x05#8
  | .process => packWord true 0x100#9 0x06#8
  | .reset => packWord true 0x100#9 0x07#8
  | .cmdRsvd08_0F d => packWord true 0x100#9 d
  | .cmdRsvd10_1F d => packWord true 0x100#9 d
  | .cmdRsvd20_3F d => packWord true 0x100#9 d
  | .cmdRsvd40_7F d => packWord true 0x100#9 d
  | .cmdRsvd80_FF d => packWord true 0x100#9 d
  | .wrErr d => packWord true 0x102#9 d
  | .wrFrameData d => packWord true 0x103#9 d
  | .wrCrcData d => packWord true 0x106#9 d
  | .wrRo000_0FF a d => packWord true a d
  | .wrRo101 d => packWord true 0x101#9 d
  | .wrRo104_105 a d => packWord true a d
  | .wrRo107 d => packWord true 0x107#9 d
  | .wrRo108_10F a d => packWord true a d
  | .wrRo110_11F a d => packWord true a d
  | .wrRo120_13F a d => packWord true a d
  | .wrRo140_17F a d => packWord true a d
  | .wrRo180_1FF a d => packWord true a d
  | .rd a d => packWord false a d

/-! ### The opcode table as data -/

/-- A row of spec/opcode_table.json: a word belongs to it when `word AND mask = pattern`. -/
structure TableRow where
  /-- The row's "mnemonic". -/
  mnemonic : String
  /-- The row's "match". -/
  pattern : TxWord
  /-- The row's "mask". -/
  mask : TxWord
  deriving DecidableEq, Repr

/-- The word belongs to the row. -/
def TableRow.admits (r : TableRow) (t : TxWord) : Bool := t &&& r.mask == r.pattern

/-- The command rows of the table (R83, R84). -/
def commandRows : List TableRow :=
  [⟨"NOP", 0x30000#18, 0x3FFFF#18⟩, ⟨"CRC_INIT", 0x30001#18, 0x3FFFF#18⟩,
   ⟨"FRAME_CLEAR", 0x30002#18, 0x3FFFF#18⟩, ⟨"VALIDATE", 0x30003#18, 0x3FFFF#18⟩,
   ⟨"DECODE", 0x30004#18, 0x3FFFF#18⟩, ⟨"PROJECT", 0x30005#18, 0x3FFFF#18⟩,
   ⟨"PROCESS", 0x30006#18, 0x3FFFF#18⟩, ⟨"RESET", 0x30007#18, 0x3FFFF#18⟩,
   ⟨"CMD_RSVD_08_0F", 0x30008#18, 0x3FFF8#18⟩, ⟨"CMD_RSVD_10_1F", 0x30010#18, 0x3FFF0#18⟩,
   ⟨"CMD_RSVD_20_3F", 0x30020#18, 0x3FFE0#18⟩, ⟨"CMD_RSVD_40_7F", 0x30040#18, 0x3FFC0#18⟩,
   ⟨"CMD_RSVD_80_FF", 0x30080#18, 0x3FF80#18⟩]

/-- The port, read-only-write and read rows of the table (R80, R85). -/
def accessRows : List TableRow :=
  [⟨"WR_ERR", 0x30200#18, 0x3FF00#18⟩, ⟨"WR_FRAME_DATA", 0x30300#18, 0x3FF00#18⟩,
   ⟨"WR_CRC_DATA", 0x30600#18, 0x3FF00#18⟩, ⟨"WR_RO_000_0FF", 0x20000#18, 0x30000#18⟩,
   ⟨"WR_RO_101", 0x30100#18, 0x3FF00#18⟩, ⟨"WR_RO_104_105", 0x30400#18, 0x3FE00#18⟩,
   ⟨"WR_RO_107", 0x30700#18, 0x3FF00#18⟩, ⟨"WR_RO_108_10F", 0x30800#18, 0x3F800#18⟩,
   ⟨"WR_RO_110_11F", 0x31000#18, 0x3F000#18⟩, ⟨"WR_RO_120_13F", 0x32000#18, 0x3E000#18⟩,
   ⟨"WR_RO_140_17F", 0x34000#18, 0x3C000#18⟩, ⟨"WR_RO_180_1FF", 0x38000#18, 0x38000#18⟩,
   ⟨"RD", 0x00000#18, 0x20000#18⟩]

/-- The whole table, 26 rows in its own order. -/
def opcodeTable : List TableRow := commandRows ++ accessRows

/-- The mnemonic of an instruction's row. -/
def Instr.mnemonic : Instr → String
  | .nop => "NOP"
  | .crcInit => "CRC_INIT"
  | .frameClear => "FRAME_CLEAR"
  | .validate => "VALIDATE"
  | .decode => "DECODE"
  | .project => "PROJECT"
  | .process => "PROCESS"
  | .reset => "RESET"
  | .cmdRsvd08_0F _ => "CMD_RSVD_08_0F"
  | .cmdRsvd10_1F _ => "CMD_RSVD_10_1F"
  | .cmdRsvd20_3F _ => "CMD_RSVD_20_3F"
  | .cmdRsvd40_7F _ => "CMD_RSVD_40_7F"
  | .cmdRsvd80_FF _ => "CMD_RSVD_80_FF"
  | .wrErr _ => "WR_ERR"
  | .wrFrameData _ => "WR_FRAME_DATA"
  | .wrCrcData _ => "WR_CRC_DATA"
  | .wrRo000_0FF _ _ => "WR_RO_000_0FF"
  | .wrRo101 _ => "WR_RO_101"
  | .wrRo104_105 _ _ => "WR_RO_104_105"
  | .wrRo107 _ => "WR_RO_107"
  | .wrRo108_10F _ _ => "WR_RO_108_10F"
  | .wrRo110_11F _ _ => "WR_RO_110_11F"
  | .wrRo120_13F _ _ => "WR_RO_120_13F"
  | .wrRo140_17F _ _ => "WR_RO_140_17F"
  | .wrRo180_1FF _ _ => "WR_RO_180_1FF"
  | .rd _ _ => "RD"

end Sys2Proof
end

