-- ==== Sys2Proof/Config.lean ====
section
/-! DEFINITION. The implementation parameters of spec/00_scope.md R6.
R6: "None is left to the model as an argument": every parameter has the spec's value and no free value remains. -/

namespace Sys2Proof.Config

/-- FRAME_BYTES (R6): the length of a well-sized frame. -/
@[simp, reducible] def frameBytes : Nat := 256

/-- CHECKED_BYTES (R6): bytes 0..253 are checksummed. -/
@[simp, reducible] def checkedBytes : Nat := 254

/-- CRC_INIT (R6, R161): the accumulator's initial value. -/
@[simp, reducible] def crcInit : U16 := 0xFFFF#16

/-- CRC_POLY_REFLECTED (R6, R160). -/
@[simp, reducible] def crcPolyReflected : U16 := 0xA001#16

/-- HEADER_BYTES (R6, R92). -/
@[simp, reducible] def headerBytes : Nat := 20

/-- MODULE_COUNT and SUMMARY_MODULES (R6, R94, R254). -/
@[simp, reducible] def moduleCount : Nat := 7

/-- MODULE_BASE (R6, R94). -/
@[simp, reducible] def moduleBase : Nat := 24

/-- MODULE_STRIDE (R6, R94). -/
@[simp, reducible] def moduleStride : Nat := 16

/-- CHARGING_BASE (R6, R96). -/
@[simp, reducible] def chargingBase : Nat := 136

/-- SCALE_DIV (R6, R12): a deci-unit raw value stands for raw / 10. -/
@[simp, reducible] def scaleDiv : Nat := 10

/-- The value at which FRAME_LEN saturates (R6 FRAME_LEN_BITS, R22). -/
@[simp, reducible] def frameLenMax : U16 := 0xFFFF#16

end Sys2Proof.Config
end

