-- ==== Sys2Proof/Machine/State.lean ====
section
/-! DEFINITION. The state of the machine as plain data: the ten components of spec/10_state.md R20 under the spec's
names, and the two fields of the host port that make the spec's `step(S, t) = (S', r)` (R14) a step of one state.
Every reset value is the spec's (spec/70_reset_and_hazards.md R331). -/

namespace Sys2Proof.Machine

/-- The frame buffer's contents: address and byte, addresses rising, no 0x00 entry.
An unlisted address reads as 0x00, the spec's reset contents (R21).  See notes/assumptions/7.md. -/
abbrev Memory := List Host.Cell

/-- The source's validate result (R25). -/
structure ValResult where
  lengthOk : Bool
  checksumValid : Bool
  /-- After the transform of R180. -/
  computedChecksum : U16
  /-- BE16(FB, 254). -/
  receivedChecksum : U16
  deriving DecidableEq, Repr

/-- One of the seven 16-byte module records (R27). -/
structure PowerModuleRecord where
  statusFlag1 : Byte
  statusFlag2 : Byte
  ambientTemperatureRaw : U16
  /-- Deci-units. -/
  currentRaw : U16
  /-- Deci-units. -/
  voltageRaw : U16
  reserved : Vector Byte 8
  deriving DecidableEq, Repr

/-- The 32-byte charging-status record (R28). -/
structure ChargingInfo where
  batterySoc : Byte
  batterySoh : Byte
  chargeEnableBit : BitVec 1
  reservedLowBits : BitVec 3
  reservedHighNibble : BitVec 4
  contactorStatus : BitVec 4
  chargingState : BitVec 4
  /-- Deci-units. -/
  demandVoltageRaw : U32
  /-- Deci-units. -/
  demandCurrentRaw : U32
  positiveGunTemperature : Byte
  negativeGunTemperature : Byte
  reserved2 : Vector Byte 2
  /-- Deci-units, from bytes [152,154) (R214). -/
  chargingVoltageRaw : U16
  /-- Deci-units, from bytes [154,156) (R214). -/
  chargingCurrentRaw : U16
  chargingTimeMinute : Byte
  chargingTimeHour : Byte
  reserved3 : Vector Byte 2
  bstReason : U16
  cstReason : U16
  energyData : U32
  deriving DecidableEq, Repr

/-- The decoded view of a 256-byte frame (R26). -/
structure DecodedFrame where
  header : Vector Byte 20
  reservedActiveBits : Vector Byte 3
  activeBitmap : BitVec 4
  powerModules : Vector PowerModuleRecord 7
  chargingInfo : ChargingInfo
  padding : Vector Byte 86
  checksumBytes : Vector Byte 2
  checksumValid : Bool
  deriving DecidableEq, Repr

/-- One module's entry of a summary, in deci-units (R29). -/
structure ModuleSummary where
  temperatureDeci : U16
  currentDeci : U16
  voltageDeci : U16
  deriving DecidableEq, Repr

/-- The projected summary (R29). -/
structure TelemetrySummary where
  stateOfCharge : Byte
  stateOfHealth : Option Byte
  modules : Vector ModuleSummary 7
  deriving DecidableEq, Repr

/-- An element of the output stream (R33). -/
structure SummaryEvent where
  seq : U16
  summary : TelemetrySummary
  deriving DecidableEq, Repr

/-- The error conditions of R36 and R300, in the order of their ERR bits. -/
inductive ErrFlag where
  | lenErr
  | crcMismatch
  | illegalCmd
  | noFrame
  | addrErr
  | frameOvf
  deriving DecidableEq, Repr

/-- What the platform and the host may do to the engine (R62, R330). -/
inductive HostInput where
  /-- The host issues one transaction word (R80). -/
  | transaction (t : TxWord)
  /-- The platform asserts the reset input between transactions (R330). -/
  | reset
  /-- The platform asserts reset in the middle of the transaction `t`, which it "must not do" (R340). -/
  | resetDuring (t : TxWord)
  deriving DecidableEq, Repr

/-- The machine. -/
structure State where
  /-- FB, the 256-byte frame buffer (R21). -/
  fb : Memory
  /-- FRAME_LEN, the FRAME_DATA writes since clear, saturating (R22). -/
  frameLen : U16
  /-- CRC_ACC, the streaming checksum accumulator (R23). -/
  crcAcc : U16
  /-- VR, the last validation of the current buffer (R24). -/
  vr : Option ValResult
  /-- DF, the decoded view of the current buffer (R26). -/
  df : Option DecodedFrame
  /-- SUM, the last projected summary (R29). -/
  sum : Option TelemetrySummary
  /-- SUM_SEQ, the summaries produced since reset, wrapping (R30). -/
  sumSeq : U16
  /-- ERR, the sticky error flags (R31, R36). -/
  err : Byte
  /-- ERR_OPC, the last rejected opcode (R32). -/
  errOpc : Byte
  /-- OUT, the summary events emitted since power-up, oldest first (R33). -/
  out : List SummaryEvent
  /-- The host port, the model's own field: the inputs not yet applied, oldest first (R57, R62; notes/assumptions/1.md). -/
  pending : List HostInput
  /-- The host port, the model's own field: the bytes returned by the RDs so far, oldest first (R14, R340; notes/assumptions/2.md). -/
  reads : List Byte
  deriving DecidableEq, Repr

/-- Why the machine could stop with a fault: never.
R310: "The engine has no traps"; R14: "No transaction faults, is refused or leaves the engine stuck".
The type has no constructor, so that no step can fault (safe: notes/assumptions/11.md). -/
inductive Fault where
  deriving DecidableEq, Repr

/-- Why a step has no meaning. -/
inductive Refusal where
  /-- An instruction without a meaning, rejected by name in `exec`'s arm.  No arm raises it.  Safe. -/
  | notModelled (mnemonic : String)
  /-- Reset asserted in the middle of a transaction, raised by `step` on `HostInput.resetDuring`.
  R340: "the platform must not do so; the spec gives it no meaning"; 93_implementation_defined.md I6: `refuse`.  Safe. -/
  | resetDuringTransaction
  deriving DecidableEq, Repr

/-- `reset_state([])` of R331, the start of every observation (R340), with nothing on the host port. -/
def State.reset : State where
  fb := []
  frameLen := 0x0000#16
  crcAcc := 0xFFFF#16
  vr := none
  df := none
  sum := none
  sumSeq := 0x0000#16
  err := 0x00#8
  errOpc := 0x00#8
  out := []
  pending := []
  reads := []

end Sys2Proof.Machine
end

