-- ==== Sys2Proof/Machine/Flags.lean ====
section
/-! DEFINITION. The engine's only flags (spec/10_state.md R34): the sticky ERR register (R31, R36) and the computed
STATUS byte (R35). -/

namespace Sys2Proof.Machine

/-- The condition's ERR bit number, its code (R36, R300). -/
def ErrFlag.bit : ErrFlag → Nat
  | .lenErr => 0
  | .crcMismatch => 1
  | .illegalCmd => 2
  | .noFrame => 3
  | .addrErr => 4
  | .frameOvf => 5

/-- `1 << F` (R11). -/
def ErrFlag.mask (f : ErrFlag) : Byte := 1#8 <<< f.bit

/-- The bits of a W1C mask that count: 7:6 are ignored (R144). -/
def w1cMask : Byte := 0x3F#8

/-- ERR after writing `d` to it: `ERR AND NOT (D AND 0x3F)` (R144). -/
def clearFlags (err d : Byte) : Byte := err &&& ~~~(d &&& w1cMask)

/-- Bit `i` of a byte holding the Bool `b` (R7: true is 1). -/
def flagBit (i : Nat) (b : Bool) : Byte := if b then 1#8 <<< i else 0#8

/-- STATUS bit 0, LEN_OK (R35). -/
def State.lenOk (s : State) : Bool := match s.vr with | some v => v.lengthOk | none => false

/-- STATUS bit 1, CRC_VALID (R35). -/
def State.crcValid (s : State) : Bool := match s.vr with | some v => v.checksumValid | none => false

/-- STATUS, computed on every read (R35). -/
def statusByte (s : State) : Byte :=
  flagBit 0 s.lenOk ||| flagBit 1 s.crcValid ||| flagBit 2 s.vr.isSome ||| flagBit 3 s.df.isSome |||
    flagBit 4 s.sum.isSome ||| flagBit 5 (decide (s.frameLen.toNat = Config.frameBytes)) |||
    flagBit 6 (decide (Config.frameBytes < s.frameLen.toNat)) ||| flagBit 7 (decide (s.err ≠ 0#8))

end Sys2Proof.Machine
end

