-- ==== Sys2Proof/Machine/Operands.lean ====
section
/-! DEFINITION. The byte store and the byte assembly of spec/00_scope.md R9: the frame buffer's read and write,
LE16, LE32, BE16, SLICE and LEbytes16, and `byte(v, k)` of spec/20_memory.md R52. -/

namespace Sys2Proof.Machine

/-- What an address that nothing has written reads as: FB resets to 0x00 (R21, R331). -/
def unlistedByte : Byte := 0x00#8

/-- `FB[a]` (R8, R21). -/
def Memory.read : Memory → Nat → Byte
  | [], _ => unlistedByte
  | (b, v) :: rest, a => if b = a then v else Memory.read rest a

/-- `FB[a] <- v` (R8): keeps the addresses rising, and drops the entry when `v` is what an unlisted address reads as. -/
def Memory.write : Memory → Nat → Byte → Memory
  | [], a, v => if v = unlistedByte then [] else [(a, v)]
  | (b, w) :: rest, a, v =>
    if a < b then (if v = unlistedByte then (b, w) :: rest else (a, v) :: (b, w) :: rest)
    else if a = b then (if v = unlistedByte then rest else (a, v) :: rest)
    else (b, w) :: Memory.write rest a v

/-- The canonical form: addresses strictly rising, all inside FB, no entry at the unlisted value. -/
abbrev Memory.wf (m : Memory) : Prop :=
  List.Pairwise (fun c d => c.1 < d.1) m ∧ ∀ c ∈ m, c.1 < Config.frameBytes ∧ c.2 ≠ unlistedByte

/-- `SLICE(FB, a, n)` (R9). -/
def slice (m : Memory) (a n : Nat) : Vector Byte n := Vector.ofFn fun k => m.read (a + k.val)

/-- `SLICE(FB, a, n)` as the byte list that the checksum takes (R9, R161). -/
def sliceList (m : Memory) (a n : Nat) : List Byte := (List.range n).map fun k => m.read (a + k)

/-- `LE16(FB, a)` (R9). -/
def le16 (m : Memory) (a : Nat) : U16 :=
  (m.read a).setWidth 16 ||| ((m.read (a + 1)).setWidth 16 <<< 8)

/-- `LE32(FB, a)` (R9). -/
def le32 (m : Memory) (a : Nat) : U32 :=
  (m.read a).setWidth 32 ||| ((m.read (a + 1)).setWidth 32 <<< 8) |||
    ((m.read (a + 2)).setWidth 32 <<< 16) ||| ((m.read (a + 3)).setWidth 32 <<< 24)

/-- BE16 of two bytes in address order (R9). -/
def be16OfBytes (first second : Byte) : U16 := (first.setWidth 16 <<< 8) ||| second.setWidth 16

/-- `BE16(FB, a)` (R9). -/
def be16 (m : Memory) (a : Nat) : U16 := be16OfBytes (m.read a) (m.read (a + 1))

/-- `LEbytes16(v)` (R9): low byte, then high byte. -/
def leBytes16 (v : U16) : Byte × Byte := (v.extractLsb' 0 8, v.extractLsb' 8 8)

/-- `byte(v, k) = v[8k+7 : 8k]` (R52). -/
def byteOf {w : Nat} (v : BitVec w) (k : Nat) : Byte := v.extractLsb' (8 * k) 8

end Sys2Proof.Machine
end

