-- ==== Sys2Proof/Machine/Ops.lean ====
section
/-! DEFINITION. The shared operations over the state.
The engine has no traps (spec/60_exceptions.md R310): the one operation every error condition goes through is
`seterr` (spec/00_scope.md R11), and there is no return from it but the W1C write of ERR (R311). -/

namespace Sys2Proof.Machine

/-! ### Errors -/

/-- `seterr(F)`: sets bit F of ERR and nothing else (R11). -/
def State.seterr (s : State) (f : ErrFlag) : State := { s with err := s.err ||| f.mask }

/-! ### The frame buffer -/

/-- FRAME_LEN after one more FRAME_DATA write: it saturates at 0xFFFF (R22, R142). -/
def nextFrameLen (n : U16) : U16 := if n = Config.frameLenMax then Config.frameLenMax else n + 1#16

/-- The address a FRAME_DATA write stores to, `FRAME_LEN`, if the buffer has room (R142). -/
def State.appendAddress (s : State) : Option Nat :=
  if s.frameLen.toNat < Config.frameBytes then some s.frameLen.toNat else none

/-- The byte goes to the end of the frame, or is discarded with FRAME_OVF (R142, R305). -/
def State.storeFrameByte (s : State) (d : Byte) : State :=
  match s.appendAddress with
  | some a => { s with fb := s.fb.write a d }
  | none => s.seterr .frameOvf

/-- One more byte counted: FRAME_LEN steps, and the results that described the old buffer become absent (R142, D12). -/
def State.countFrameByte (s : State) : State :=
  { s with frameLen := nextFrameLen s.frameLen, vr := none, df := none }

/-- The buffer zeroed and emptied, with its results (R271). -/
def State.clearFrame (s : State) : State :=
  { s with fb := [], frameLen := 0x0000#16, vr := none, df := none }

/-! ### Results and output -/

/-- `S.VR <- some v` (R182). -/
def State.setVr (s : State) (v : ValResult) : State := { s with vr := some v }

/-- `S.DF <- d` (R220). -/
def State.setDf (s : State) (d : Option DecodedFrame) : State := { s with df := d }

/-- `emit(e)`: appends the event to the output stream (R11, R256). -/
def State.emit (s : State) (e : SummaryEvent) : State := { s with out := s.out ++ [e] }

/-- SUM and the wrapping SUM_SEQ take a new summary (R255). -/
def State.setSummary (s : State) (z : TelemetrySummary) : State :=
  { s with sum := some z, sumSeq := s.sumSeq + 1#16 }

/-! ### The checksum accumulator and the rejected opcode -/

/-- `S.CRC_ACC <- v` (R163, R164). -/
def State.setCrcAcc (s : State) (v : U16) : State := { s with crcAcc := v }

/-- `S.ERR_OPC <- D` (R274). -/
def State.setErrOpc (s : State) (d : Byte) : State := { s with errOpc := d }

/-- The W1C write of ERR (R144). -/
def State.clearErr (s : State) (d : Byte) : State := { s with err := clearFlags s.err d }

/-! ### Reset -/

/-- `S <- reset_state(S.OUT)` (R273, R331).
OUT survives because its events have left the engine (R332).
So does the host port, which is the host's and no component of S (R20; notes/assumptions/4.md). -/
def State.toReset (s : State) : State :=
  { State.reset with out := s.out, pending := s.pending, reads := s.reads }

/-! ### The host port -/

/-- The read data `r` of a RD goes to the host (R14). -/
def State.respond (s : State) (r : Byte) : State := { s with reads := s.reads ++ [r] }

/-- The oldest input of the host, and the state without it (R57). -/
def State.takeInput (s : State) : Option (HostInput × State) :=
  match s.pending with
  | [] => none
  | x :: rest => some (x, { s with pending := rest })

/-- The host issues `x` before the inputs it has pending. -/
def State.issueNext (s : State) (x : HostInput) : State := { s with pending := x :: s.pending }

end Sys2Proof.Machine
end

