-- ==== Sys2Proof/Machine/Checksum.lean ====
section
/-! DEFINITION. The Checksum Engine (spec/41_checksum.md): crc_step, checksum, CRC_INIT and WR_CRC_DATA. -/

namespace Sys2Proof.Machine

/-- One shift of R160: logical right shift, and XOR with 0xA001 if the bit shifted out was 1. -/
def crcShift (acc : U16) : U16 :=
  if acc.getLsbD 0 then (acc >>> 1) ^^^ Config.crcPolyReflected else acc >>> 1

/-- `n` shifts, in order. -/
def crcShifts : Nat → U16 → U16
  | 0, acc => acc
  | n + 1, acc => crcShifts n (crcShift acc)

/-- `crc_step(acc, b)` (R160). -/
def crcStep (acc : U16) (b : Byte) : U16 := crcShifts 8 (acc ^^^ b.setWidth 16)

/-- `checksum(bs)` (R161): no final XOR. -/
def checksum (bs : List Byte) : U16 := bs.foldl crcStep Config.crcInit

/-- CRC_INIT (R163). -/
def execCrcInit (s : State) : Host.Outcome State Fault Refusal :=
  .next (s.setCrcAcc Config.crcInit)

/-- WR_CRC_DATA (R164). -/
def execWrCrcData (d : Byte) (s : State) : Host.Outcome State Fault Refusal :=
  .next (s.setCrcAcc (crcStep s.crcAcc d))

end Sys2Proof.Machine
end

