-- ==== Sys2Proof/Machine/Validator.lean ====
section
/-! DEFINITION. The Frame Validator (spec/42_validator.md): transform, validate, run_validation and VALIDATE. -/

namespace Sys2Proof.Machine

/-- `transform(c)` (R180): the bytes in little-endian order, reversed, read big-endian.
The three steps are kept as the rule asks; that they give `c` back (R181) is a fact about them. -/
def transform (c : U16) : U16 :=
  let bs := leBytes16 c
  let rs := (bs.2, bs.1)
  be16OfBytes rs.1 rs.2

/-- `validate(FB, L)` (R182). -/
def validate (fb : Memory) (len : U16) : ValResult :=
  if len.toNat ≠ Config.frameBytes then
    { lengthOk := false, checksumValid := false, computedChecksum := 0x0000#16, receivedChecksum := 0x0000#16 }
  else
    let comp := transform (checksum (sliceList fb 0 Config.checkedBytes))
    let recv := be16 fb 254
    { lengthOk := true, checksumValid := decide (recv = comp), computedChecksum := comp, receivedChecksum := recv }

/-- The flag a verdict raises: LEN_ERR, else CRC_MISMATCH, else none (R182). -/
def State.flagVerdict (s : State) (v : ValResult) : State :=
  if v.lengthOk = false then s.seterr .lenErr
  else if v.checksumValid = false then s.seterr .crcMismatch
  else s

/-- The state after `run_validation` (R182). -/
def State.runValidation (s : State) : State :=
  let v := validate s.fb s.frameLen
  (s.setVr v).flagVerdict v

/-- VALIDATE (R183). -/
def execValidate (s : State) : Host.Outcome State Fault Refusal := .next s.runValidation

end Sys2Proof.Machine
end

