-- ==== Sys2Proof/Machine/Decoder.lean ====
section
/-! DEFINITION. The Field Decoder (spec/43_decoder.md): decode_fields, decode and DECODE.
Offsets are those of spec/30_encoding.md R90 to R99. -/

namespace Sys2Proof.Machine

/-- `base(i) = 24 + 16*i` (R94). -/
def moduleOffset (i : Nat) : Nat := Config.moduleBase + Config.moduleStride * i

/-- `power_modules[i]` (R204 to R207, at the offsets of R95). -/
def decodeModule (fb : Memory) (i : Nat) : PowerModuleRecord :=
  let b := moduleOffset i
  { statusFlag1 := fb.read b
    statusFlag2 := fb.read (b + 1)
    ambientTemperatureRaw := le16 fb (b + 2)
    currentRaw := le16 fb (b + 4)
    voltageRaw := le16 fb (b + 6)
    reserved := slice fb (b + 8) 8 }

/-- `charging_info` (R208 to R218, at the offsets of R96). -/
def decodeCharging (fb : Memory) : ChargingInfo :=
  { batterySoc := fb.read 136
    batterySoh := fb.read 137
    chargeEnableBit := (fb.read 138).extractLsb' 0 1
    reservedLowBits := (fb.read 138).extractLsb' 1 3
    reservedHighNibble := (fb.read 138).extractLsb' 4 4
    contactorStatus := (fb.read 139).extractLsb' 4 4
    chargingState := (fb.read 139).extractLsb' 0 4
    demandVoltageRaw := le32 fb 140
    demandCurrentRaw := le32 fb 144
    positiveGunTemperature := fb.read 148
    negativeGunTemperature := fb.read 149
    reserved2 := slice fb 150 2
    chargingVoltageRaw := le16 fb 152
    chargingCurrentRaw := le16 fb 154
    chargingTimeMinute := fb.read 156
    chargingTimeHour := fb.read 157
    reserved3 := slice fb 158 2
    bstReason := le16 fb 160
    cstReason := le16 fb 162
    energyData := le32 fb 164 }

/-- `decode_fields(FB, cv)` (R200 to R203, R219). -/
def decodeFields (fb : Memory) (cv : Bool) : DecodedFrame :=
  { header := slice fb 0 20
    reservedActiveBits := slice fb 20 3
    activeBitmap := (fb.read 23).extractLsb' 0 4
    powerModules := Vector.ofFn fun i => decodeModule fb i.val
    chargingInfo := decodeCharging fb
    padding := slice fb 168 86
    checksumBytes := slice fb 254 2
    checksumValid := cv }

/-- `decode(FB, L)` (R200): absent only for a wrong length. -/
def decodeFrame (fb : Memory) (len : U16) : Option DecodedFrame :=
  let v := validate fb len
  if v.lengthOk then some (decodeFields fb v.checksumValid) else none

/-- The state after the DECODE procedure, shared by DECODE and PROCESS (R220). -/
def State.runDecode (s : State) : State :=
  s.runValidation.setDf (decodeFrame s.fb s.frameLen)

/-- DECODE (R220). -/
def execDecode (s : State) : Host.Outcome State Fault Refusal := .next s.runDecode

end Sys2Proof.Machine
end

