-- ==== Sys2Proof/Machine/Projector.lean ====
section
/-! DEFINITION. The Telemetry Projector (spec/44_projector.md): project, the summary event and PROJECT. -/

namespace Sys2Proof.Machine

/-- A module's summary entry: the raw values pass through (R253, R254). -/
def projectModule (m : PowerModuleRecord) : ModuleSummary :=
  { temperatureDeci := m.ambientTemperatureRaw, currentDeci := m.currentRaw, voltageDeci := m.voltageRaw }

/-- `project(d)` (R250 to R254). -/
def project (d : DecodedFrame) : TelemetrySummary :=
  { stateOfCharge := d.chargingInfo.batterySoc
    stateOfHealth := some d.chargingInfo.batterySoh
    modules := d.powerModules.map projectModule }

/-- A summary is recorded and its event emitted with the new SUM_SEQ (R255, R256). -/
def State.publish (s : State) (z : TelemetrySummary) : State :=
  let s1 := s.setSummary z
  s1.emit { seq := s1.sumSeq, summary := z }

/-- The state after the PROJECT procedure, shared by PROJECT and PROCESS (R255). -/
def State.runProject (s : State) : State :=
  match s.df with
  | some d => s.publish (project d)
  | none => s.seterr .noFrame

/-- PROJECT (R255). -/
def execProject (s : State) : Host.Outcome State Fault Refusal := .next s.runProject

end Sys2Proof.Machine
end

