-- ==== Sys2Proof/Machine/Control.lean ====
section
/-! DEFINITION. The control commands (spec/45_control.md): NOP, FRAME_CLEAR, PROCESS, RESET and CMD_RSVD. -/

namespace Sys2Proof.Machine

/-- NOP (R270). -/
def execNop (s : State) : Host.Outcome State Fault Refusal := .next s

/-- FRAME_CLEAR (R271). -/
def execFrameClear (s : State) : Host.Outcome State Fault Refusal := .next s.clearFrame

/-- PROCESS (R272): DECODE, then PROJECT only if a frame was decoded, so that it never sets NO_FRAME. -/
def execProcess (s : State) : Host.Outcome State Fault Refusal :=
  let s1 := s.runDecode
  match s1.df with
  | some _ => .next s1.runProject
  | none => .next s1

/-- RESET (R273). -/
def execReset (s : State) : Host.Outcome State Fault Refusal := .next s.toReset

/-- The effect of a reserved opcode, shared by its five rows (R274). -/
def State.rejectCommand (s : State) (d : Byte) : State := (s.setErrOpc d).seterr .illegalCmd

/-- CMD_RSVD 0x08..0x0F (R274). -/
def execCmdRsvd08_0F (d : Byte) (s : State) : Host.Outcome State Fault Refusal := .next (s.rejectCommand d)

/-- CMD_RSVD 0x10..0x1F (R274). -/
def execCmdRsvd10_1F (d : Byte) (s : State) : Host.Outcome State Fault Refusal := .next (s.rejectCommand d)

/-- CMD_RSVD 0x20..0x3F (R274). -/
def execCmdRsvd20_3F (d : Byte) (s : State) : Host.Outcome State Fault Refusal := .next (s.rejectCommand d)

/-- CMD_RSVD 0x40..0x7F (R274). -/
def execCmdRsvd40_7F (d : Byte) (s : State) : Host.Outcome State Fault Refusal := .next (s.rejectCommand d)

/-- CMD_RSVD 0x80..0xFF (R274). -/
def execCmdRsvd80_FF (d : Byte) (s : State) : Host.Outcome State Fault Refusal := .next (s.rejectCommand d)

end Sys2Proof.Machine
end

