-- ==== Sys2Proof/Machine/Registers.lean ====
section
/-! DEFINITION. The register map (spec/20_memory.md R51, R52): the byte every one of the 512 addresses reads as. -/

namespace Sys2Proof.Machine

/-- Byte `k` of the DEC_MOD[i] window (R52). -/
def moduleReg (m : PowerModuleRecord) (k : Nat) : Byte :=
  if k = 0 then m.statusFlag1
  else if k = 1 then m.statusFlag2
  else if k ≤ 3 then byteOf m.ambientTemperatureRaw (k - 2)
  else if k ≤ 5 then byteOf m.currentRaw (k - 4)
  else byteOf m.voltageRaw (k - 6)

/-- The DEC_CHG registers, 0x170..0x18F (R52). -/
def chargingReg (c : ChargingInfo) (a : Nat) : Byte :=
  if a = 0x170 then c.batterySoc
  else if a = 0x171 then c.batterySoh
  else if a = 0x172 then c.chargeEnableBit.setWidth 8
  else if a = 0x173 then c.reservedLowBits.setWidth 8
  else if a = 0x174 then c.reservedHighNibble.setWidth 8
  else if a = 0x175 then c.contactorStatus.setWidth 8
  else if a = 0x176 then c.chargingState.setWidth 8
  else if a = 0x177 then c.positiveGunTemperature
  else if a = 0x178 then c.negativeGunTemperature
  else if a = 0x179 then c.chargingTimeMinute
  else if a = 0x17A then c.chargingTimeHour
  else if a = 0x17B then 0x00#8
  else if a ≤ 0x17F then byteOf c.demandVoltageRaw (a - 0x17C)
  else if a ≤ 0x183 then byteOf c.demandCurrentRaw (a - 0x180)
  else if a ≤ 0x185 then byteOf c.chargingVoltageRaw (a - 0x184)
  else if a ≤ 0x187 then byteOf c.chargingCurrentRaw (a - 0x186)
  else if a ≤ 0x189 then byteOf c.bstReason (a - 0x188)
  else if a ≤ 0x18B then byteOf c.cstReason (a - 0x18A)
  else byteOf c.energyData (a - 0x18C)

/-- `DEC(d, A)` for A in 0x120..0x18F (R52). -/
def decReg (d : DecodedFrame) (a : Nat) : Byte :=
  if a = 0x120 then d.activeBitmap.setWidth 8
  else if a < 0x130 then 0x00#8
  else if a < 0x168 then
    match d.powerModules[(a - 0x130) / 8]? with
    | some m => moduleReg m ((a - 0x130) % 8)
    | none => 0x00#8
  else if a < 0x170 then 0x00#8
  else chargingReg d.chargingInfo a

/-- Byte `k` of the SUM_MOD[i] window (R52). -/
def summaryModuleReg (q : ModuleSummary) (k : Nat) : Byte :=
  if k ≤ 1 then byteOf q.temperatureDeci k
  else if k ≤ 3 then byteOf q.currentDeci (k - 2)
  else byteOf q.voltageDeci (k - 4)

/-- `SUMREG(s, A)` for A in 0x190..0x1BD (R52). -/
def sumReg (z : TelemetrySummary) (a : Nat) : Byte :=
  if a = 0x190 then z.stateOfCharge
  else if a = 0x191 then z.stateOfHealth.getD 0x00#8
  else if a = 0x192 then flagBit 0 z.stateOfHealth.isSome
  else if a = 0x193 then 0x07#8
  else
    match z.modules[(a - 0x194) / 6]? with
    | some q => summaryModuleReg q ((a - 0x194) % 6)
    | none => 0x00#8

/-- VAL_COMPUTED, 0x0000 while VR is absent (R51). -/
def State.valComputed (s : State) : U16 := match s.vr with | some v => v.computedChecksum | none => 0x0000#16

/-- VAL_RECEIVED, 0x0000 while VR is absent (R51). -/
def State.valReceived (s : State) : U16 := match s.vr with | some v => v.receivedChecksum | none => 0x0000#16

/-- The DEC_* byte at `a`, 0x00 while DF is absent (R51). -/
def State.decByte (s : State) (a : Nat) : Byte := match s.df with | some d => decReg d a | none => 0x00#8

/-- The SUM_* byte at `a`, 0x00 while SUM is absent (R51). -/
def State.sumByte (s : State) (a : Nat) : Byte := match s.sum with | some z => sumReg z a | none => 0x00#8

/-- `readReg(S, A)` (R52).  A write-only port and an unmapped address read 0x00. -/
def readReg (s : State) (addr : Addr) : Byte :=
  let a := addr.toNat
  if a ≤ 0x0FF then s.fb.read a
  else if a = 0x101 then statusByte s
  else if a = 0x102 then s.err
  else if a = 0x104 ∨ a = 0x105 then byteOf s.frameLen (a - 0x104)
  else if a = 0x108 ∨ a = 0x109 then byteOf s.crcAcc (a - 0x108)
  else if a = 0x10A ∨ a = 0x10B then byteOf s.valComputed (a - 0x10A)
  else if a = 0x10C ∨ a = 0x10D then byteOf s.valReceived (a - 0x10C)
  else if a = 0x10E then s.errOpc
  else if a = 0x110 ∨ a = 0x111 then byteOf s.sumSeq (a - 0x110)
  else if 0x120 ≤ a ∧ a ≤ 0x18F then s.decByte a
  else if 0x190 ≤ a ∧ a ≤ 0x1BD then s.sumByte a
  else 0x00#8

end Sys2Proof.Machine
end

