-- ==== Sys2Proof/Machine/HostAccess.lean ====
section
/-! DEFINITION. The host access transactions (spec/40_host_access.md): RD, WR_FRAME_DATA, WR_ERR and WR_RO. -/

namespace Sys2Proof.Machine

/-- RD (R140): the byte goes to the host, the engine is unchanged, and D is ignored. -/
def execRd (a : Addr) (_d : Byte) (s : State) : Host.Outcome State Fault Refusal :=
  .next (s.respond (readReg s a))

/-- WR_FRAME_DATA (R142). -/
def execWrFrameData (d : Byte) (s : State) : Host.Outcome State Fault Refusal :=
  .next (s.storeFrameByte d).countFrameByte

/-- WR_ERR (R144). -/
def execWrErr (d : Byte) (s : State) : Host.Outcome State Fault Refusal :=
  .next (s.clearErr d)

/-- The effect of WR_RO, shared by its nine rows: ADDR_ERR and nothing else (R145). -/
def State.refuseWrite (s : State) : State := s.seterr .addrErr

/-- WR_RO on the frame window (R145). -/
def execWrRo000_0FF (_a : Addr) (_d : Byte) (s : State) : Host.Outcome State Fault Refusal := .next s.refuseWrite

/-- WR_RO on STATUS (R145). -/
def execWrRo101 (_d : Byte) (s : State) : Host.Outcome State Fault Refusal := .next s.refuseWrite

/-- WR_RO on FRAME_LEN (R145). -/
def execWrRo104_105 (_a : Addr) (_d : Byte) (s : State) : Host.Outcome State Fault Refusal := .next s.refuseWrite

/-- WR_RO on the unmapped 0x107 (R145). -/
def execWrRo107 (_d : Byte) (s : State) : Host.Outcome State Fault Refusal := .next s.refuseWrite

/-- WR_RO on CRC_ACC, VAL_*, ERR_OPC and 0x10F (R145). -/
def execWrRo108_10F (_a : Addr) (_d : Byte) (s : State) : Host.Outcome State Fault Refusal := .next s.refuseWrite

/-- WR_RO on SUM_SEQ and 0x112..0x11F (R145). -/
def execWrRo110_11F (_a : Addr) (_d : Byte) (s : State) : Host.Outcome State Fault Refusal := .next s.refuseWrite

/-- WR_RO on 0x120..0x13F (R145). -/
def execWrRo120_13F (_a : Addr) (_d : Byte) (s : State) : Host.Outcome State Fault Refusal := .next s.refuseWrite

/-- WR_RO on 0x140..0x17F (R145). -/
def execWrRo140_17F (_a : Addr) (_d : Byte) (s : State) : Host.Outcome State Fault Refusal := .next s.refuseWrite

/-- WR_RO on 0x180..0x1FF (R145). -/
def execWrRo180_1FF (_a : Addr) (_d : Byte) (s : State) : Host.Outcome State Fault Refusal := .next s.refuseWrite

end Sys2Proof.Machine
end

