-- ==== Sys2Proof/Machine/Dispatch.lean ====
section
/-! DEFINITION. The dispatch: one arm per constructor of `Instr`, one direct call of its meaning (spec/30_encoding.md R80, R83). -/

namespace Sys2Proof.Machine

/-- The transaction `i` applied to `s`. -/
def exec (i : Instr) (s : State) : Host.Outcome State Fault Refusal :=
  match i with
  | .nop => Sys2Proof.Machine.execNop s
  | .crcInit => Sys2Proof.Machine.execCrcInit s
  | .frameClear => Sys2Proof.Machine.execFrameClear s
  | .validate => Sys2Proof.Machine.execValidate s
  | .decode => Sys2Proof.Machine.execDecode s
  | .project => Sys2Proof.Machine.execProject s
  | .process => Sys2Proof.Machine.execProcess s
  | .reset => Sys2Proof.Machine.execReset s
  | .cmdRsvd08_0F d => Sys2Proof.Machine.execCmdRsvd08_0F d s
  | .cmdRsvd10_1F d => Sys2Proof.Machine.execCmdRsvd10_1F d s
  | .cmdRsvd20_3F d => Sys2Proof.Machine.execCmdRsvd20_3F d s
  | .cmdRsvd40_7F d => Sys2Proof.Machine.execCmdRsvd40_7F d s
  | .cmdRsvd80_FF d => Sys2Proof.Machine.execCmdRsvd80_FF d s
  | .wrErr d => Sys2Proof.Machine.execWrErr d s
  | .wrFrameData d => Sys2Proof.Machine.execWrFrameData d s
  | .wrCrcData d => Sys2Proof.Machine.execWrCrcData d s
  | .wrRo000_0FF a d => Sys2Proof.Machine.execWrRo000_0FF a d s
  | .wrRo101 d => Sys2Proof.Machine.execWrRo101 d s
  | .wrRo104_105 a d => Sys2Proof.Machine.execWrRo104_105 a d s
  | .wrRo107 d => Sys2Proof.Machine.execWrRo107 d s
  | .wrRo108_10F a d => Sys2Proof.Machine.execWrRo108_10F a d s
  | .wrRo110_11F a d => Sys2Proof.Machine.execWrRo110_11F a d s
  | .wrRo120_13F a d => Sys2Proof.Machine.execWrRo120_13F a d s
  | .wrRo140_17F a d => Sys2Proof.Machine.execWrRo140_17F a d s
  | .wrRo180_1FF a d => Sys2Proof.Machine.execWrRo180_1FF a d s
  | .rd a d => Sys2Proof.Machine.execRd a d s

end Sys2Proof.Machine
end

