-- ==== Sys2Proof/Machine/Step.lean ====
section
/-! DEFINITION. One step: the machine applies the oldest input of the host (spec/20_memory.md R57, R62).
The engine has no program counter and fetches nothing itself (spec/10_state.md R34; spec/20_memory.md R50): what stands in
the place of a fetch is taking the next transaction from the host. -/

namespace Sys2Proof.Machine

/-- One step.  With no input the engine "holds its state and does nothing" (R319). -/
def step (s : State) : Host.Outcome State Fault Refusal :=
  match s.takeInput with
  | none => .next s
  | some (.transaction t, s1) => exec (decodeWord t) s1
  | some (.reset, s1) => .next s1.toReset
  | some (.resetDuring _, _) => .refused .resetDuringTransaction

/-- `s` with the host issuing the word `w` next, before what it has pending (notes/assumptions/8.md).
A number that is no 18-bit word is no transaction and leaves `s` as it is. -/
def State.withFetchWord (s : State) (_nbits w : Nat) : State :=
  if w < 2 ^ 18 then s.issueNext (.transaction (BitVec.ofNat 18 w)) else s

end Sys2Proof.Machine
end

