-- ==== Sys2Proof/Machine/Views.lean ====
section
/-! DEFINITION. The physical values of spec/00_scope.md R12 and spec/43_decoder.md R221, and the rendering views of R222.
They are functions an observation applies to decoded values, not engine state. -/

namespace Sys2Proof.Machine

/-- The scaled fields of R221 and of the summary (R251 to R254). -/
inductive ScaledField where
  | moduleCurrent
  | moduleVoltage
  | moduleAmbientTemperature
  | demandVoltage
  | demandCurrent
  | chargingVoltage
  | chargingCurrent
  | batterySoc
  | batterySoh
  | positiveGunTemperature
  | negativeGunTemperature
  | chargingTimeMinute
  | chargingTimeHour
  | bstReason
  | cstReason
  | energyData
  | summaryStateOfCharge
  | summaryStateOfHealth
  | summaryTemperature
  | summaryCurrent
  | summaryVoltage
  deriving DecidableEq, Repr

/-- The divisor of each field: R221 for the decoded view, R251 to R254 for the summary.
The ambient temperature has divisor 1 in the decoded view and 10 in the summary (R205, R253, C2). -/
def ScaledField.divisor : ScaledField → Nat
  | .moduleCurrent => Config.scaleDiv
  | .moduleVoltage => Config.scaleDiv
  | .moduleAmbientTemperature => 1
  | .demandVoltage => Config.scaleDiv
  | .demandCurrent => Config.scaleDiv
  | .chargingVoltage => Config.scaleDiv
  | .chargingCurrent => Config.scaleDiv
  | .batterySoc => 1
  | .batterySoh => 1
  | .positiveGunTemperature => 1
  | .negativeGunTemperature => 1
  | .chargingTimeMinute => 1
  | .chargingTimeHour => 1
  | .bstReason => 1
  | .cstReason => 1
  | .energyData => 1
  | .summaryStateOfCharge => 1
  | .summaryStateOfHealth => 1
  | .summaryTemperature => Config.scaleDiv
  | .summaryCurrent => Config.scaleDiv
  | .summaryVoltage => Config.scaleDiv

/-- The exact rational a raw value stands for (R12). -/
def physicalValue {w : Nat} (f : ScaledField) (raw : BitVec w) : Rat := mkRat raw.toNat f.divisor

/-- `ch(b)` (R222). -/
def bitChar (b : Bool) : Char := if b then '1' else '0'

/-- `bin4(x)`: most significant bit first (R222; PRESUMED by the spec itself, D27). -/
def bin4 (x : BitVec 4) : List Char :=
  [bitChar (x.getLsbD 3), bitChar (x.getLsbD 2), bitChar (x.getLsbD 1), bitChar (x.getLsbD 0)]

/-- `header_text(h)`: bytes 0x80..0xFF dropped, the rest kept in order (R222; PRESUMED by the spec itself, D28). -/
def headerText (h : Vector Byte 20) : List Char :=
  (h.toList.filter fun b => decide (b.toNat < 0x80)).map fun b => Char.ofNat b.toNat

end Sys2Proof.Machine
end

