-- ==== Sys2Proof/Machine/Assembler.lean ====
section
/-! DEFINITION. The assembler lines of spec/30_encoding.md R88 and the pseudo-instructions of R89, as the words the host issues.
They are notation for sequences of transactions (decision D3): no meaning of an instruction depends on this file. -/

namespace Sys2Proof.Machine

/-- A line of R88. -/
inductive AsmLine where
  /-- `RD <addr>` -/
  | rd (a : Addr)
  /-- `WR <addr>, <byte>` -/
  | wr (a : Addr) (b : Byte)
  deriving DecidableEq, Repr

/-- The word of a line (R88).  An encoder writes 0 in the data byte of a read (R80). -/
def AsmLine.word : AsmLine → TxWord
  | .rd a => packWord false a 0x00#8
  | .wr a b => packWord true a b

/-- The eight command mnemonics that are pseudo-instructions (R83, R89). -/
inductive CommandName where
  | nop
  | crcInit
  | frameClear
  | validate
  | decode
  | project
  | process
  | reset
  deriving DecidableEq, Repr

/-- The command opcode map (R83). -/
def CommandName.opcode : CommandName → Byte
  | .nop => 0x00#8
  | .crcInit => 0x01#8
  | .frameClear => 0x02#8
  | .validate => 0x03#8
  | .decode => 0x04#8
  | .project => 0x05#8
  | .process => 0x06#8
  | .reset => 0x07#8

/-- The pseudo-instructions of R89. -/
inductive Pseudo where
  | command (c : CommandName)
  /-- `FEED b` -/
  | feed (b : Byte)
  /-- `FEEDN n, b` -/
  | feedN (n : Nat) (b : Byte)
  /-- `CRCB b` -/
  | crcB (b : Byte)
  /-- `CLRERR m` -/
  | clrErr (m : Byte)
  /-- `RD16 a` -/
  | rd16 (a : Addr)
  /-- `RD32 a` -/
  | rd32 (a : Addr)
  deriving DecidableEq, Repr

/-- The expansions of R89.  An address past 0x1FF wraps to 0x000 (DESIGN CHOICE: notes/assumptions/13.md). -/
def Pseudo.expand : Pseudo → List AsmLine
  | .command c => [.wr 0x100#9 c.opcode]
  | .feed b => [.wr 0x103#9 b]
  | .feedN n b => List.replicate n (.wr 0x103#9 b)
  | .crcB b => [.wr 0x106#9 b]
  | .clrErr m => [.wr 0x102#9 m]
  | .rd16 a => [.rd a, .rd (a + 1#9)]
  | .rd32 a => [.rd a, .rd (a + 1#9), .rd (a + 2#9), .rd (a + 3#9)]

/-- The value of `RD16 a`: `(second << 8) OR first` (R89). -/
def rd16Value (first second : Byte) : U16 := (second.setWidth 16 <<< 8) ||| first.setWidth 16

/-- The value of `RD32 a`, little-endian (R89). -/
def rd32Value (b0 b1 b2 b3 : Byte) : U32 :=
  (b3.setWidth 32 <<< 24) ||| (b2.setWidth 32 <<< 16) ||| (b1.setWidth 32 <<< 8) ||| b0.setWidth 32

/-- The inputs a host gives for a list of pseudo-instructions, in order. -/
def assemble (ps : List Pseudo) : List HostInput :=
  (ps.flatMap Pseudo.expand).map fun l => .transaction l.word

end Sys2Proof.Machine
end

