-- ==== Sys2Proof/Safety.lean ====
section
/-! DEFINITION. The terms claims are stated in: the invariants of spec/10_state.md R38, the flags a transaction may raise
(spec/60_exceptions.md R309), a run of host inputs and what it shows (spec/70_reset_and_hazards.md R340). -/

namespace Sys2Proof.Machine

/-- R38 item 1: a decoded frame is the decoding of the current 256-byte buffer under its last verdict. -/
def DecodedViewCurrent (s : State) : Prop :=
  ∀ d, s.df = some d →
    s.frameLen.toNat = 256 ∧ ∃ v, s.vr = some v ∧ v.lengthOk = true ∧ d = decodeFields s.fb v.checksumValid

/-- R38 item 2: a validation result is that of the current buffer. -/
def VerdictCurrent (s : State) : Prop := ∀ v, s.vr = some v → v = validate s.fb s.frameLen

/-- R38 item 3: the buffer is 0x00 beyond the received bytes. -/
def ZeroBeyondLength (s : State) : Prop :=
  ∀ k, min s.frameLen.toNat 256 ≤ k → k < 256 → s.fb.read k = 0x00#8

/-- R38 item 4: ERR bits 7:6 are 0. -/
def ErrReservedClear (s : State) : Prop := s.err.extractLsb' 6 2 = 0b00#2

/-- The readable summary is the last emitted event's, under its number, and has a state of health (R252, R255, R256).
Without a summary no event has been counted since reset (R30, R38 item 5). -/
def SummaryMatchesOutput (s : State) : Prop :=
  match s.sum with
  | some z => s.out.getLast? = some { seq := s.sumSeq, summary := z } ∧ z.stateOfHealth.isSome = true
  | none => s.sumSeq = 0x0000#16

/-- The invariant of the engine: R38 items 1 to 4, the frame buffer's canonical form, and the summary's agreement with OUT. -/
structure Inv (s : State) : Prop where
  memoryCanonical : s.fb.wf
  decodedViewCurrent : DecodedViewCurrent s
  verdictCurrent : VerdictCurrent s
  zeroBeyondLength : ZeroBeyondLength s
  errReservedClear : ErrReservedClear s
  summaryMatchesOutput : SummaryMatchesOutput s

/-- The flags a transaction can raise (R309). -/
def mayRaise : Instr → List ErrFlag
  | .nop => []
  | .crcInit => []
  | .frameClear => []
  | .validate => [.lenErr, .crcMismatch]
  | .decode => [.lenErr, .crcMismatch]
  | .project => [.noFrame]
  | .process => [.lenErr, .crcMismatch]
  | .reset => []
  | .cmdRsvd08_0F _ => [.illegalCmd]
  | .cmdRsvd10_1F _ => [.illegalCmd]
  | .cmdRsvd20_3F _ => [.illegalCmd]
  | .cmdRsvd40_7F _ => [.illegalCmd]
  | .cmdRsvd80_FF _ => [.illegalCmd]
  | .wrErr _ => []
  | .wrFrameData _ => [.frameOvf]
  | .wrCrcData _ => []
  | .wrRo000_0FF _ _ => [.addrErr]
  | .wrRo101 _ => [.addrErr]
  | .wrRo104_105 _ _ => [.addrErr]
  | .wrRo107 _ => [.addrErr]
  | .wrRo108_10F _ _ => [.addrErr]
  | .wrRo110_11F _ _ => [.addrErr]
  | .wrRo120_13F _ _ => [.addrErr]
  | .wrRo140_17F _ _ => [.addrErr]
  | .wrRo180_1FF _ _ => [.addrErr]
  | .rd _ _ => []

/-- The machine with the host's inputs waiting. -/
def State.withInputs (s : State) (xs : List HostInput) : State := { s with pending := xs }

/-- The outcome of applying the host's inputs in order, one step each (R57, R340), with nothing else pending.
A step that stops ends the run. -/
def runInputs (xs : List HostInput) (s : State) : Host.Outcome State Fault Refusal :=
  Host.Core.run Sys2Proof.core xs.length (s.withInputs xs)

/-- What a claim can observe (R340). -/
structure Observation where
  /-- The byte returned by each RD, in order. -/
  reads : List Byte
  /-- The final OUT. -/
  out : List SummaryEvent
  /-- The final state, read through `readReg` at 0x000..0x1FF. -/
  registers : List Byte
  deriving DecidableEq, Repr

/-- The observation of a state (R340). -/
def observe (s : State) : Observation :=
  { reads := s.reads
    out := s.out
    registers := (List.range 512).map fun a => readReg s (BitVec.ofNat 9 a) }

/-- A host behaves as the platform rules ask: it never asserts reset in the middle of a transaction (R340). -/
def platformSafe (xs : List HostInput) : Bool :=
  xs.all fun x => match x with
    | .transaction _ => true
    | .reset => true
    | .resetDuring _ => false

end Sys2Proof.Machine
end

