-- ==== Sys2Proof/Certificates/Slice0/Obligations.lean ====
section
/-! DEFINITION. The statements for the provers.  Each docstring names the rules of spec/ it formalises. -/

namespace Sys2Proof.Claims

open Sys2Proof.Machine

/-! ### Clauses of the register map (R51 to R53) -/

/-- Two consecutive registers hold a 16-bit value, low byte at the lower address (R53). -/
def Reads16 (s : State) (a : Nat) (v : U16) : Prop :=
  readReg s (BitVec.ofNat 9 (a + 1)) ++ readReg s (BitVec.ofNat 9 a) = v

/-- Four consecutive registers hold a 32-bit value, low byte at the lowest address (R53). -/
def Reads32 (s : State) (a : Nat) (v : U32) : Prop :=
  readReg s (BitVec.ofNat 9 (a + 3)) ++ readReg s (BitVec.ofNat 9 (a + 2)) ++
    readReg s (BitVec.ofNat 9 (a + 1)) ++ readReg s (BitVec.ofNat 9 a) = v

/-- One register holds a byte. -/
def Reads8 (s : State) (a : Nat) (v : Byte) : Prop := readReg s (BitVec.ofNat 9 a) = v

/-- Every register of a range, bounds included, reads 0x00. -/
def ReadsZero (s : State) (lo hi : Nat) : Prop := ∀ a, lo ≤ a → a ≤ hi → Reads8 s a 0x00#8

/-- The frame window, STATUS, ERR, the counters, the accumulator and the validator's registers (R51, R52). -/
def SystemRegisters (s : State) : Prop :=
  (∀ a, a ≤ 0x0FF → Reads8 s a (s.fb.read a)) ∧
  Reads8 s 0x101 (statusByte s) ∧ Reads8 s 0x102 s.err ∧
  Reads16 s 0x104 s.frameLen ∧ Reads16 s 0x108 s.crcAcc ∧
  (∀ v, s.vr = some v → Reads16 s 0x10A v.computedChecksum ∧ Reads16 s 0x10C v.receivedChecksum) ∧
  (s.vr = none → Reads16 s 0x10A 0x0000#16 ∧ Reads16 s 0x10C 0x0000#16) ∧
  Reads8 s 0x10E s.errOpc ∧ Reads16 s 0x110 s.sumSeq

/-- The write-only ports and the unmapped addresses (R51, R52). -/
def UnmappedRegisters (s : State) : Prop :=
  Reads8 s 0x100 0x00#8 ∧ Reads8 s 0x103 0x00#8 ∧ ReadsZero s 0x106 0x107 ∧ Reads8 s 0x10F 0x00#8 ∧
  ReadsZero s 0x112 0x11F ∧ ReadsZero s 0x121 0x12F ∧ ReadsZero s 0x168 0x16F ∧ Reads8 s 0x17B 0x00#8 ∧
  ReadsZero s 0x1BE 0x1FF

/-- DEC_MOD[i] (R52). -/
def ModuleRegisters (s : State) (i : Nat) (m : PowerModuleRecord) : Prop :=
  Reads8 s (0x130 + 8 * i) m.statusFlag1 ∧ Reads8 s (0x131 + 8 * i) m.statusFlag2 ∧
  Reads16 s (0x132 + 8 * i) m.ambientTemperatureRaw ∧ Reads16 s (0x134 + 8 * i) m.currentRaw ∧
  Reads16 s (0x136 + 8 * i) m.voltageRaw

/-- DEC_CHG (R52). -/
def ChargingRegisters (s : State) (c : ChargingInfo) : Prop :=
  Reads8 s 0x170 c.batterySoc ∧ Reads8 s 0x171 c.batterySoh ∧
  Reads8 s 0x172 (c.chargeEnableBit.setWidth 8) ∧ Reads8 s 0x173 (c.reservedLowBits.setWidth 8) ∧
  Reads8 s 0x174 (c.reservedHighNibble.setWidth 8) ∧ Reads8 s 0x175 (c.contactorStatus.setWidth 8) ∧
  Reads8 s 0x176 (c.chargingState.setWidth 8) ∧ Reads8 s 0x177 c.positiveGunTemperature ∧
  Reads8 s 0x178 c.negativeGunTemperature ∧ Reads8 s 0x179 c.chargingTimeMinute ∧
  Reads8 s 0x17A c.chargingTimeHour ∧ Reads32 s 0x17C c.demandVoltageRaw ∧ Reads32 s 0x180 c.demandCurrentRaw ∧
  Reads16 s 0x184 c.chargingVoltageRaw ∧ Reads16 s 0x186 c.chargingCurrentRaw ∧ Reads16 s 0x188 c.bstReason ∧
  Reads16 s 0x18A c.cstReason ∧ Reads32 s 0x18C c.energyData

/-- DEC_* while DF is present, and while it is absent (R51, R52). -/
def DecodedRegisters (s : State) : Prop :=
  (∀ d, s.df = some d → Reads8 s 0x120 (d.activeBitmap.setWidth 8) ∧
    (∀ i, (h : i < 7) → ModuleRegisters s i d.powerModules[i]) ∧ ChargingRegisters s d.chargingInfo) ∧
  (s.df = none → ReadsZero s 0x120 0x18F)

/-- SUM_* while SUM is present, and while it is absent (R51, R52). -/
def SummaryRegisters (s : State) : Prop :=
  (∀ z, s.sum = some z → Reads8 s 0x190 z.stateOfCharge ∧
    (∀ h, z.stateOfHealth = some h → Reads8 s 0x191 h ∧ Reads8 s 0x192 0x01#8) ∧
    (z.stateOfHealth = none → Reads8 s 0x191 0x00#8 ∧ Reads8 s 0x192 0x00#8) ∧
    Reads8 s 0x193 0x07#8 ∧
    (∀ i, (h : i < 7) → Reads16 s (0x194 + 6 * i) (z.modules[i]).temperatureDeci ∧
      Reads16 s (0x196 + 6 * i) (z.modules[i]).currentDeci ∧ Reads16 s (0x198 + 6 * i) (z.modules[i]).voltageDeci)) ∧
  (s.sum = none → ReadsZero s 0x190 0x1BD)

/-! ### Groups of instructions and inputs -/

/-- The five rows of a reserved opcode (R84). -/
def reservedRows (d : Byte) : List Instr :=
  [.cmdRsvd08_0F d, .cmdRsvd10_1F d, .cmdRsvd20_3F d, .cmdRsvd40_7F d, .cmdRsvd80_FF d]

/-- The nine rows of a write to a non-writable address (R85). -/
def readOnlyRows (a : Addr) (d : Byte) : List Instr :=
  [.wrRo000_0FF a d, .wrRo101 d, .wrRo104_105 a d, .wrRo107 d, .wrRo108_10F a d, .wrRo110_11F a d,
   .wrRo120_13F a d, .wrRo140_17F a d, .wrRo180_1FF a d]

/-- The addresses with a write of their own (R85). -/
def writableAddresses : List Addr := [0x100#9, 0x102#9, 0x103#9, 0x106#9]

/-- The input runs the instruction. -/
def Runs (x : HostInput) (i : Instr) : Prop := ∃ w, x = .transaction w ∧ decodeWord w = i

/-- The input resets the engine: the reset input or the RESET command (R330). -/
def Resets (x : HostInput) : Prop := x = .reset ∨ Runs x .reset

/-- The input ends the lifetime of VR and DF (R336). -/
def EndsResults (x : HostInput) : Prop := Resets x ∨ Runs x .frameClear ∨ ∃ d, Runs x (.wrFrameData d)

/-- A transaction word that writes a byte. -/
def writeInput (a : Addr) (d : Byte) : HostInput := .transaction (packWord true a d)

/-- A transaction word that reads a byte. -/
def readInput (a : Addr) : HostInput := .transaction (packWord false a 0x00#8)

end Sys2Proof.Claims

open Sys2Proof Sys2Proof.Machine Sys2Proof.Claims

/-! ## Control commands and reset -/

/-- R270: a NOP leaves every register as it was; by its word 0x30000 too. -/
def Obligations.NopChangesNothing : Prop :=
  ∀ (s : State) (rest : List HostInput),
    exec .nop s = .next s ∧
    step { s with pending := .transaction 0x30000#18 :: rest } = .next { s with pending := rest }

/-- R271: FRAME_CLEAR zeroes and empties the buffer and drops its results; SUM, SUM_SEQ, CRC_ACC and ERR stay.
STATUS LEN_OK, CRC_VALID, VAL_DONE, DEC_VALID, LEN_EQ256 and LEN_GT256 become 0. -/
def Obligations.FrameClearResult : Prop :=
  decodeWord 0x30002#18 = .frameClear ∧ ∀ s : State, ∃ t, exec .frameClear s = .next t ∧
    (∀ k, t.fb.read k = 0x00#8) ∧ t.frameLen = 0x0000#16 ∧ t.vr = none ∧ t.df = none ∧
    statusByte t &&& 0x6F#8 = 0x00#8 ∧
    t.crcAcc = s.crcAcc ∧ t.sum = s.sum ∧ t.sumSeq = s.sumSeq ∧ t.err = s.err ∧ t.errOpc = s.errOpc ∧
    t.out = s.out ∧ t.pending = s.pending ∧ t.reads = s.reads

/-- R273, R331: RESET sets every component but OUT; afterwards every register reads 0x00 but CRC_ACC's two bytes.
The reset input has the same effect. -/
def Obligations.ResetCommandResult : Prop :=
  decodeWord 0x30007#18 = .reset ∧
  (∀ (s : State) (rest : List HostInput),
    step { s with pending := .reset :: rest } = exec .reset { s with pending := rest }) ∧
  ∀ s : State, ∃ t, exec .reset s = .next t ∧
    (∀ k, t.fb.read k = 0x00#8) ∧ t.frameLen = 0x0000#16 ∧ t.crcAcc = 0xFFFF#16 ∧ t.vr = none ∧ t.df = none ∧
    t.sum = none ∧ t.sumSeq = 0x0000#16 ∧ t.err = 0x00#8 ∧ t.errOpc = 0x00#8 ∧ t.out = s.out ∧
    ∀ a : Addr, readReg t a = if a = 0x108#9 ∨ a = 0x109#9 then 0xFF#8 else 0x00#8

/-- The start state is `reset_state([])` (R331, R340), with an idle host port (the model's: notes/assumptions/6.md). -/
def Obligations.StartStateIsResetState : Prop :=
  (∀ k, State.reset.fb.read k = 0x00#8) ∧ State.reset.frameLen = 0x0000#16 ∧ State.reset.crcAcc = 0xFFFF#16 ∧
  State.reset.vr = none ∧ State.reset.df = none ∧ State.reset.sum = none ∧ State.reset.sumSeq = 0x0000#16 ∧
  State.reset.err = 0x00#8 ∧ State.reset.errOpc = 0x00#8 ∧ State.reset.out = [] ∧ State.reset.pending = [] ∧
  State.reset.reads = []

/-- R274: a reserved opcode sets ERR_OPC and ILLEGAL_CMD, and nothing else changes. -/
def Obligations.ReservedCommandResult : Prop :=
  ∀ (d : Byte) (s : State),
    (0x08 ≤ d.toNat → decodeWord (packWord true 0x100#9 d) ∈ reservedRows d) ∧
    ∀ i ∈ reservedRows d, exec i s = .next { s with errOpc := d, err := s.err ||| 0x04#8 }

/-- R274, through the decoder: every write of D >= 0x08 to 0x100 has that effect. -/
def Obligations.ReservedOpcodeWordIsRejected : Prop :=
  ∀ (d : Byte) (s : State) (rest : List HostInput), 0x08 ≤ d.toNat →
    step { s with pending := writeInput 0x100#9 d :: rest } =
      .next { s with pending := rest, errOpc := d, err := s.err ||| 0x04#8 }

/-- R272: PROCESS is DECODE, then PROJECT if a frame was decoded; a length error leaves the state of the DECODE. -/
def Obligations.ProcessResult : Prop :=
  decodeWord 0x30006#18 = .process ∧ ∀ s : State, ∃ t, exec .decode s = .next t ∧
    (s.frameLen.toNat = 256 →
      let z := project (decodeFields s.fb (validate s.fb s.frameLen).checksumValid)
      exec .process s =
        .next { t with sum := some z, sumSeq := s.sumSeq + 1#16, out := s.out ++ [⟨s.sumSeq + 1#16, z⟩] }) ∧
    (s.frameLen.toNat ≠ 256 → exec .process s = .next t ∧ t.df = none ∧ t.out = s.out ∧ t.err = s.err ||| 0x01#8)

/-! ## Checksum Engine -/

/-- R160: the byte is merged by XOR, then eight conditional shifts. -/
def Obligations.CrcStepIsEightShifts : Prop :=
  ∀ (acc : U16) (b : Byte),
    crcStep acc b =
      (fun v : U16 => if v.getLsbD 0 = true then (v >>> 1) ^^^ 0xA001#16 else v >>> 1)^[8] (acc ^^^ b.setWidth 16)

/-- R161: the accumulator starts at 0xFFFF, each byte is folded in turn, and there is no final XOR. -/
def Obligations.ChecksumFoldsEachByte : Prop :=
  checksum [] = 0xFFFF#16 ∧ ∀ (bs : List Byte) (b : Byte), checksum (bs ++ [b]) = crcStep (checksum bs) b

/-- R162 item 4: for each byte, no two accumulators go to one, and every accumulator is reached. -/
def Obligations.CrcStepIsBijective : Prop := ∀ b : Byte, Function.Bijective fun acc : U16 => crcStep acc b

/-- R163. -/
def Obligations.CrcInitResult : Prop :=
  decodeWord 0x30001#18 = .crcInit ∧ ∀ s : State, exec .crcInit s = .next { s with crcAcc := 0xFFFF#16 }

/-- R164. -/
def Obligations.CrcDataResult : Prop :=
  ∀ (d : Byte) (s : State), decodeWord (packWord true 0x106#9 d) = .wrCrcData d ∧
    exec (.wrCrcData d) s = .next { s with crcAcc := crcStep s.crcAcc d }

/-- R335: CRC_INIT, one CRCB per byte, then RD16 0x108 returns the checksum of the bytes.
Without CRC_INIT the bytes fold into the previous accumulator; the first sequence after reset needs none. -/
def Obligations.ChecksumStreamSequence : Prop :=
  ∀ bs : List Byte,
    (∀ s : State, ∃ lo hi : Byte,
      runInputs (assemble (.command .crcInit :: bs.map .crcB ++ [.rd16 0x108#9])) s =
        .next { s with pending := [], crcAcc := checksum bs, reads := s.reads ++ [lo, hi] } ∧
      rd16Value lo hi = checksum bs) ∧
    (∀ s : State, runInputs (assemble (bs.map .crcB)) s =
      .next { s with pending := [], crcAcc := bs.foldl crcStep s.crcAcc }) ∧
    (∀ s : State, runInputs (.reset :: assemble (bs.map .crcB)) s =
      .next { s.toReset with pending := [], crcAcc := checksum bs })

/-- R165: RD16 0x108 reads CRC_ACC, low byte at 0x108 and high byte at 0x109, and does not change it. -/
def Obligations.ReadingTheAccumulator : Prop :=
  ∀ s : State, ∃ lo hi : Byte,
    runInputs (assemble [.rd16 0x108#9]) s = .next { s with pending := [], reads := s.reads ++ [lo, hi] } ∧
    rd16Value lo hi = s.crcAcc ∧ readReg s 0x108#9 = lo ∧ readReg s 0x109#9 = hi

/-- The checksum covers every byte of the frame: a frame that differs from a valid one in exactly one byte is invalid.
Derived from R160 to R162 and R182. -/
def Obligations.SingleByteCorruptionIsDetected : Prop :=
  ∀ (m n : Memory) (k : Nat), k < 256 → m.read k ≠ n.read k →
    (∀ j, j < 256 → j ≠ k → m.read j = n.read j) →
    (validate m 256#16).checksumValid = true → (validate n 256#16).checksumValid = false

/-! ## Frame Validator -/

/-- R181: the transform is the identity, and a 256-byte frame passes exactly when byte 254 is the checksum's high byte
and byte 255 its low byte. -/
def Obligations.PassMeansHighByteFirst : Prop :=
  (∀ c : U16, transform c = c) ∧
  ∀ m : Memory,
    let c := checksum ((List.range 254).map m.read)
    (validate m 256#16).checksumValid = true ↔ m.read 254 = c.extractLsb' 8 8 ∧ m.read 255 = c.extractLsb' 0 8

/-- R182, R183: VALIDATE records the verdict and raises at most its one flag; nothing else changes. -/
def Obligations.ValidateResult : Prop :=
  decodeWord 0x30003#18 = .validate ∧ ∀ s : State,
    (s.frameLen.toNat ≠ 256 →
      exec .validate s = .next { s with vr := some ⟨false, false, 0x0000#16, 0x0000#16⟩, err := s.err ||| 0x01#8 }) ∧
    (s.frameLen.toNat = 256 →
      let comp := transform (checksum ((List.range 254).map s.fb.read))
      let recv : U16 := s.fb.read 254 ++ s.fb.read 255
      (recv = comp → exec .validate s = .next { s with vr := some ⟨true, true, comp, recv⟩ }) ∧
      (recv ≠ comp →
        exec .validate s = .next { s with vr := some ⟨true, false, comp, recv⟩, err := s.err ||| 0x02#8 }))

/-! ## Field Decoder -/

/-- R200: decode is absent exactly when the length is not 256, and otherwise decodes whatever the verdict. -/
def Obligations.DecodeAbsentOnlyForLength : Prop :=
  ∀ (m : Memory) (len : U16),
    (len.toNat ≠ 256 → decodeFrame m len = none) ∧
    (len.toNat = 256 → decodeFrame m len = some (decodeFields m (validate m len).checksumValid))

/-- R201 to R203 and R219: the fields outside the modules and the charging record. -/
def Obligations.OuterFieldsDecoded : Prop :=
  ∀ (m : Memory) (cv : Bool),
    let d := decodeFields m cv
    (∀ k, (h : k < 20) → d.header[k] = m.read k) ∧
    (∀ k, (h : k < 3) → d.reservedActiveBits[k] = m.read (20 + k)) ∧
    (∀ b, b < 4 → d.activeBitmap.getLsbD b = (m.read 23).getLsbD b) ∧
    (∀ k, (h : k < 86) → d.padding[k] = m.read (168 + k)) ∧
    (∀ k, (h : k < 2) → d.checksumBytes[k] = m.read (254 + k)) ∧ d.checksumValid = cv

/-- R204 to R207: module `i` at base 24 + 16*i, with the scales of its temperature, current and voltage. -/
def Obligations.ModuleFieldsDecoded : Prop :=
  ∀ (m : Memory) (cv : Bool) (i : Nat) (h : i < 7),
    let r := (decodeFields m cv).powerModules[i]
    let b := 24 + 16 * i
    r.statusFlag1 = m.read b ∧ r.statusFlag2 = m.read (b + 1) ∧
    r.ambientTemperatureRaw = m.read (b + 3) ++ m.read (b + 2) ∧
    r.currentRaw = m.read (b + 5) ++ m.read (b + 4) ∧ r.voltageRaw = m.read (b + 7) ++ m.read (b + 6) ∧
    (∀ k, (hk : k < 8) → r.reserved[k] = m.read (b + 8 + k)) ∧
    physicalValue .moduleAmbientTemperature r.ambientTemperatureRaw = r.ambientTemperatureRaw.toNat ∧
    physicalValue .summaryTemperature r.ambientTemperatureRaw = r.ambientTemperatureRaw.toNat / 10 ∧
    physicalValue .moduleCurrent r.currentRaw = r.currentRaw.toNat / 10 ∧
    physicalValue .moduleVoltage r.voltageRaw = r.voltageRaw.toNat / 10

/-- R208 to R218: the charging record, with the scales the rules give its fields. -/
def Obligations.ChargingFieldsDecoded : Prop :=
  ∀ (m : Memory) (cv : Bool),
    let c := (decodeFields m cv).chargingInfo
    c.batterySoc = m.read 136 ∧ c.batterySoh = m.read 137 ∧
    c.chargeEnableBit = (m.read 138 &&& 0x01#8).setWidth 1 ∧
    c.reservedLowBits = ((m.read 138 >>> 1) &&& 0x07#8).setWidth 3 ∧
    c.reservedHighNibble = ((m.read 138 >>> 4) &&& 0x0F#8).setWidth 4 ∧
    c.contactorStatus = ((m.read 139 >>> 4) &&& 0x0F#8).setWidth 4 ∧
    c.chargingState = (m.read 139 &&& 0x0F#8).setWidth 4 ∧
    c.demandVoltageRaw = m.read 143 ++ m.read 142 ++ m.read 141 ++ m.read 140 ∧
    c.demandCurrentRaw = m.read 147 ++ m.read 146 ++ m.read 145 ++ m.read 144 ∧
    c.positiveGunTemperature = m.read 148 ∧ c.negativeGunTemperature = m.read 149 ∧
    c.reserved2[0] = m.read 150 ∧ c.reserved2[1] = m.read 151 ∧
    c.chargingVoltageRaw = m.read 153 ++ m.read 152 ∧ c.chargingCurrentRaw = m.read 155 ++ m.read 154 ∧
    c.chargingTimeMinute = m.read 156 ∧ c.chargingTimeHour = m.read 157 ∧
    c.reserved3[0] = m.read 158 ∧ c.reserved3[1] = m.read 159 ∧
    c.bstReason = m.read 161 ++ m.read 160 ∧ c.cstReason = m.read 163 ++ m.read 162 ∧
    c.energyData = m.read 167 ++ m.read 166 ++ m.read 165 ++ m.read 164 ∧
    physicalValue .batterySoc c.batterySoc = c.batterySoc.toNat ∧
    physicalValue .batterySoh c.batterySoh = c.batterySoh.toNat ∧
    physicalValue .demandVoltage c.demandVoltageRaw = c.demandVoltageRaw.toNat / 10 ∧
    physicalValue .demandCurrent c.demandCurrentRaw = c.demandCurrentRaw.toNat / 10 ∧
    physicalValue .positiveGunTemperature c.positiveGunTemperature = c.positiveGunTemperature.toNat ∧
    physicalValue .negativeGunTemperature c.negativeGunTemperature = c.negativeGunTemperature.toNat ∧
    physicalValue .chargingVoltage c.chargingVoltageRaw = c.chargingVoltageRaw.toNat / 10 ∧
    physicalValue .chargingCurrent c.chargingCurrentRaw = c.chargingCurrentRaw.toNat / 10 ∧
    physicalValue .energyData c.energyData = c.energyData.toNat

/-- R221: the physical value of each field is raw / 10 for the six `/10.0` fields and raw for the others. -/
def Obligations.DecodedScales : Prop :=
  ∀ (w : Nat) (raw : BitVec w),
    (∀ f ∈ [ScaledField.moduleCurrent, .moduleVoltage, .demandVoltage, .demandCurrent, .chargingVoltage,
      .chargingCurrent], physicalValue f raw = raw.toNat / 10) ∧
    (∀ f ∈ [ScaledField.moduleAmbientTemperature, .batterySoc, .batterySoh, .positiveGunTemperature,
      .negativeGunTemperature, .chargingTimeMinute, .chargingTimeHour, .bstReason, .cstReason, .energyData],
      physicalValue f raw = raw.toNat)

/-- R220: DECODE is a validation, which sets VR and at most a flag, and then DF is the decoded buffer or none. -/
def Obligations.DecodeResult : Prop :=
  decodeWord 0x30004#18 = .decode ∧ ∀ s : State, ∃ t, exec .validate s = .next t ∧
    t.vr = some (validate s.fb s.frameLen) ∧ t.fb = s.fb ∧ t.frameLen = s.frameLen ∧ t.crcAcc = s.crcAcc ∧
    t.sum = s.sum ∧ t.sumSeq = s.sumSeq ∧ t.errOpc = s.errOpc ∧ t.out = s.out ∧
    exec .decode s = .next
      { t with df :=
          if s.frameLen.toNat = 256 then some (decodeFields s.fb (validate s.fb s.frameLen).checksumValid) else none }

/-! ## Telemetry Projector -/

/-- R250, R251, R253, R254: the summary's fields, its seven modules in order, and their scales.
The verdict in the record does not matter. -/
def Obligations.ProjectFunction : Prop :=
  ∀ d : DecodedFrame,
    let z := project d
    z.stateOfCharge = d.chargingInfo.batterySoc ∧ z.stateOfHealth = some d.chargingInfo.batterySoh ∧
    (∀ i, (h : i < 7) → z.modules[i] =
      ⟨d.powerModules[i].ambientTemperatureRaw, d.powerModules[i].currentRaw, d.powerModules[i].voltageRaw⟩) ∧
    (∀ cv, project { d with checksumValid := cv } = z) ∧
    physicalValue .summaryStateOfCharge z.stateOfCharge = d.chargingInfo.batterySoc.toNat ∧
    (∀ i, (h : i < 7) →
      physicalValue .summaryTemperature (z.modules[i]).temperatureDeci = d.powerModules[i].ambientTemperatureRaw.toNat / 10 ∧
      physicalValue .summaryCurrent (z.modules[i]).currentDeci = d.powerModules[i].currentRaw.toNat / 10 ∧
      physicalValue .summaryVoltage (z.modules[i]).voltageDeci = d.powerModules[i].voltageRaw.toNat / 10)

/-- R255: PROJECT records and emits the summary under the next number, or raises NO_FRAME. -/
def Obligations.ProjectResult : Prop :=
  decodeWord 0x30005#18 = .project ∧ ∀ s : State,
    (∀ d, s.df = some d → exec .project s =
      .next { s with sum := some (project d), sumSeq := s.sumSeq + 1#16,
                     out := s.out ++ [⟨s.sumSeq + 1#16, project d⟩] }) ∧
    (s.df = none → exec .project s = .next { s with err := s.err ||| 0x08#8 })

/-! ## Host access -/

/-- R140: RD returns `readReg` to the host and changes nothing; the data byte of the word is ignored.
A write-only port, an unmapped address and an absent result read 0x00.
Beyond FRAME_LEN the frame window returns 0x00 in states that meet R38 item 3. -/
def Obligations.ReadResult : Prop :=
  ∀ (a : Addr) (d : Byte) (s : State), decodeWord (packWord false a d) = .rd a d ∧
    exec (.rd a d) s = .next { s with reads := s.reads ++ [readReg s a] } ∧
    UnmappedRegisters s ∧ (s.vr = none → ReadsZero s 0x10A 0x10D) ∧ (s.df = none → ReadsZero s 0x120 0x18F) ∧
    (s.sum = none → ReadsZero s 0x190 0x1BD) ∧
    (ZeroBeyondLength s → min s.frameLen.toNat 256 ≤ a.toNat → a.toNat < 256 → readReg s a = 0x00#8)

/-- R142, R143: the byte is stored at FRAME_LEN or discarded with FRAME_OVF; FRAME_LEN counts and saturates; VR and DF
become none; a completed frame starts nothing.  Every other byte, register and output stays. -/
def Obligations.FrameDataResult : Prop :=
  ∀ (d : Byte) (s : State), decodeWord (packWord true 0x103#9 d) = .wrFrameData d ∧
    ∃ t, exec (.wrFrameData d) s = .next t ∧
    s.appendAddress = (if s.frameLen.toNat < 256 then some s.frameLen.toNat else none) ∧
    (∀ a, s.appendAddress = some a → t.err = s.err ∧ (s.fb.wf → t.fb.read a = d) ∧
      ∀ k, k ≠ a → t.fb.read k = s.fb.read k) ∧
    (s.appendAddress = none → t.err = s.err ||| 0x20#8 ∧ ∀ k, t.fb.read k = s.fb.read k) ∧
    t.frameLen = (if s.frameLen = 0xFFFF#16 then 0xFFFF#16 else s.frameLen + 1#16) ∧
    t.vr = none ∧ t.df = none ∧ statusByte t &&& 0x0F#8 = 0x00#8 ∧
    t.crcAcc = s.crcAcc ∧ t.sum = s.sum ∧ t.sumSeq = s.sumSeq ∧ t.errOpc = s.errOpc ∧ t.out = s.out ∧
    t.pending = s.pending ∧ t.reads = s.reads

/-- R144: the ERR bits whose mask bit is 1 go to 0, mask bits 7:6 ignored, and nothing else changes. -/
def Obligations.WriteErrResult : Prop :=
  ∀ (d : Byte) (s : State), decodeWord (packWord true 0x102#9 d) = .wrErr d ∧
    ∃ e : Byte, exec (.wrErr d) s = .next { s with err := e } ∧
    ∀ b, b < 8 → e.getLsbD b = (s.err.getLsbD b && !(d.getLsbD b && decide (b < 6)))

/-- R145: a write to a read-only or unmapped address sets ADDR_ERR and nothing else changes. -/
def Obligations.ReadOnlyWriteResult : Prop :=
  ∀ (a : Addr) (d : Byte) (s : State),
    (a ∉ writableAddresses → decodeWord (packWord true a d) ∈ readOnlyRows a d) ∧
    ∀ i ∈ readOnlyRows a d, exec i s = .next { s with err := s.err ||| 0x10#8 }

/-- R145, R306, through the decoder: so does every write word whose address is not 0x100, 0x102, 0x103 or 0x106.
A read word sets no flag at any address. -/
def Obligations.ReadOnlyWordSetsAddrErr : Prop :=
  ∀ (a : Addr) (d : Byte) (s : State) (rest : List HostInput),
    (a ∉ writableAddresses → step { s with pending := writeInput a d :: rest } =
      .next { s with pending := rest, err := s.err ||| 0x10#8 }) ∧
    step { s with pending := readInput a :: rest } = .next { s with pending := rest, reads := s.reads ++ [readReg s a] }

/-- R51 to R53: the byte every address reads as, multi-byte registers least significant byte first. -/
def Obligations.RegisterMapReads : Prop :=
  ∀ s : State, SystemRegisters s ∧ UnmappedRegisters s ∧ DecodedRegisters s ∧ SummaryRegisters s

/-- R35: the eight STATUS bits, the value after reset, and a write to 0x101. -/
def Obligations.StatusBits : Prop :=
  (∀ s : State,
    ((statusByte s).getLsbD 0 = true ↔ ∃ v, s.vr = some v ∧ v.lengthOk = true) ∧
    ((statusByte s).getLsbD 1 = true ↔ ∃ v, s.vr = some v ∧ v.checksumValid = true) ∧
    ((statusByte s).getLsbD 2 = true ↔ ∃ v, s.vr = some v) ∧
    ((statusByte s).getLsbD 3 = true ↔ ∃ d, s.df = some d) ∧
    ((statusByte s).getLsbD 4 = true ↔ ∃ z, s.sum = some z) ∧
    ((statusByte s).getLsbD 5 = true ↔ s.frameLen = 256#16) ∧
    ((statusByte s).getLsbD 6 = true ↔ 256 < s.frameLen.toNat) ∧
    ((statusByte s).getLsbD 7 = true ↔ s.err ≠ 0x00#8) ∧ readReg s 0x101#9 = statusByte s) ∧
  statusByte State.reset = 0x00#8 ∧
  ∀ (s : State) (d : Byte), exec (.wrRo101 d) s = .next { s with err := s.err ||| 0x10#8 }

/-! ## Rules over every transaction and every step -/

/-- The step takes the oldest input (R57, R62): a transaction runs the decoded instruction, reset resets, no input
holds the state (R319), and a reset in the middle of a transaction is refused by name (R340). -/
def Obligations.StepRunsOldestInput : Prop :=
  ∀ (s : State) (rest : List HostInput),
    (∀ t, step { s with pending := .transaction t :: rest } = exec (decodeWord t) { s with pending := rest }) ∧
    step { s with pending := .reset :: rest } = .next { s.toReset with pending := rest } ∧
    step { s with pending := [] } = .next { s with pending := [] } ∧
    ∀ t, step { s with pending := .resetDuring t :: rest } = .refused .resetDuringTransaction

/-- Issuing a well-formed instruction's word next runs exactly it (R86; the model's `withFetchWord`). -/
def Obligations.IssuedWordRunsInstruction : Prop :=
  ∀ (i : Instr) (s : State), i.wellFormed = true → step (s.withFetchWord 18 (encodeWord i).toNat) = exec i s

/-- R14: a step is total on every state and every word; it returns a byte for a read and nothing for a write, and
appends its events to OUT.  No transaction faults, is refused or gets stuck, and none touches a later one (R275). -/
def Obligations.TransactionStepIsTotal : Prop :=
  ∀ (s : State) (w : TxWord) (rest : List HostInput), s.pending = .transaction w :: rest →
    ∃ t, step s = .next t ∧ t.pending = rest ∧
      (w.getLsbD 17 = false → t.reads = s.reads ++ [readReg s (w.extractLsb' 8 9)]) ∧
      (w.getLsbD 17 = true → t.reads = s.reads) ∧ ∃ es, t.out = s.out ++ es

/-- Every run of inputs that keeps the platform's rule completes with all of them applied, and any other is refused by name.
Derived from R14, R62, R319 and R340. -/
def Obligations.RunsCompleteUnderPlatformRule : Prop :=
  ∀ (xs : List HostInput) (s : State),
    (platformSafe xs = true → ∃ t, runInputs xs s = .next t ∧ t.pending = []) ∧
    (platformSafe xs = false → runInputs xs s = .refused .resetDuringTransaction)

/-- R309: one transaction raises at most one error flag, and only one its row of the table allows.
RESET and WR_ERR raise none: they only clear. -/
def Obligations.AtMostOneFlagRaised : Prop :=
  ∀ (i : Instr) (s t : State), exec i s = .next t →
    t.err = s.err ∨ (∃ f ∈ mayRaise i, t.err = s.err ||| f.mask) ∨
    ((i = .reset ∨ ∃ d, i = .wrErr d) ∧ t.err &&& ~~~s.err = 0x00#8)

/-- R31: a flag is cleared only by a 1 written to its bit, by RESET or by reset; bits 7:6 are never set; reset value 0x00. -/
def Obligations.ErrFlagsAreSticky : Prop :=
  (∀ (s t : State) (b : Nat), step s = .next t → s.err.getLsbD b = true → t.err.getLsbD b = false →
    ∃ x rest, s.pending = x :: rest ∧ (Resets x ∨ ∃ d : Byte, Runs x (.wrErr d) ∧ d.getLsbD b = true)) ∧
  (∀ (s t : State) (b : Nat), step s = .next t → 6 ≤ b → s.err.getLsbD b = false → t.err.getLsbD b = false) ∧
  State.reset.err = 0x00#8

/-- Only FRAME_DATA at the end of the frame, FRAME_CLEAR and the two resets change a byte of the frame buffer.
Every other transaction leaves every byte as it was (R21, D10). -/
def Obligations.OnlyFramePortWritesBuffer : Prop :=
  ∀ (s t : State) (k : Nat), step s = .next t → t.fb.read k ≠ s.fb.read k →
    ∃ x rest, s.pending = x :: rest ∧
      (Resets x ∨ Runs x .frameClear ∨ ∃ d, Runs x (.wrFrameData d) ∧ s.appendAddress = some k)

/-- R22: FRAME_LEN counts the FRAME_DATA writes since the last FRAME_CLEAR or reset, saturating at 0xFFFF.
No other input changes it. -/
def Obligations.FrameLenCountsWrites : Prop :=
  (∀ (s : State) (bs : List Byte), ∃ t,
    runInputs (assemble (.command .frameClear :: bs.map .feed)) s = .next t ∧
    t.frameLen.toNat = min bs.length 0xFFFF) ∧
  (∀ (s : State) (bs : List Byte), ∃ t,
    runInputs (.reset :: assemble (bs.map .feed)) s = .next t ∧ t.frameLen.toNat = min bs.length 0xFFFF) ∧
  (∀ (s t : State), step s = .next t → t.frameLen ≠ s.frameLen → ∃ x rest, s.pending = x :: rest ∧ EndsResults x) ∧
  State.reset.frameLen = 0x0000#16

/-- Only CRC_INIT, CRC_DATA writes and the two resets change CRC_ACC (R23). -/
def Obligations.OnlyChecksumPortWritesAccumulator : Prop :=
  ∀ (s t : State), step s = .next t → t.crcAcc ≠ s.crcAcc →
    ∃ x rest, s.pending = x :: rest ∧ (Resets x ∨ Runs x .crcInit ∨ ∃ d, Runs x (.wrCrcData d))

/-- R32: ERR_OPC takes the data byte of a reserved opcode, is cleared by RESET and reset, and no other rule writes it. -/
def Obligations.ErrOpcHoldsLastReservedOpcode : Prop :=
  (∀ (s t : State) (x : HostInput) (rest : List HostInput), s.pending = x :: rest → step s = .next t →
    (∀ d : Byte, 0x08 ≤ d.toNat → x = writeInput 0x100#9 d → t.errOpc = d) ∧
    (Resets x → t.errOpc = 0x00#8) ∧
    ((∀ d : Byte, 0x08 ≤ d.toNat → x ≠ writeInput 0x100#9 d) → ¬ Resets x → t.errOpc = s.errOpc)) ∧
  State.reset.errOpc = 0x00#8

/-- R33: OUT is append-only under every step, resets included; an appended event is the summary just recorded under its
number; no register read depends on OUT. -/
def Obligations.OutputIsAppendOnly : Prop :=
  (∀ s t : State, step s = .next t →
    t.out = s.out ∨ ∃ z, t.sum = some z ∧ t.sumSeq = s.sumSeq + 1#16 ∧ t.out = s.out ++ [⟨t.sumSeq, z⟩]) ∧
  ∀ (s : State) (o : List SummaryEvent) (a : Addr), readReg { s with out := o } a = readReg s a

/-- R38 item 5, as a step: SUM is none after a step exactly if it was a reset, or SUM was none and nothing was projected. -/
def Obligations.SummaryPresentOnceProjected : Prop :=
  ∀ s t : State, step s = .next t →
    (t.sum = none ↔ (∃ x rest, s.pending = x :: rest ∧ Resets x) ∨ (s.sum = none ∧ t.out = s.out))

/-- R336, in states that meet the invariant: VR and DF last until a FRAME_DATA write, FRAME_CLEAR, RESET or reset, and
then read as absent; SUM lasts until the next successful projection, RESET or reset. -/
def Obligations.ResultLifetimes : Prop :=
  ∀ (s t : State) (x : HostInput) (rest : List HostInput), Inv s → s.pending = x :: rest → step s = .next t →
    (EndsResults x → t.vr = none ∧ t.df = none ∧ statusByte t &&& 0x0F#8 = 0x00#8 ∧
      ReadsZero t 0x10A 0x10D ∧ ReadsZero t 0x120 0x18F) ∧
    (¬ EndsResults x → (∀ v, s.vr = some v → t.vr = some v) ∧ ∀ d, s.df = some d → t.df = some d) ∧
    (¬ Resets x → ∀ z, s.sum = some z →
      t.sum = some z ∨ ∃ z', t.sum = some z' ∧ t.out = s.out ++ [⟨t.sumSeq, z'⟩])

/-- Repeating a write (R56): NOP, CRC_INIT, FRAME_CLEAR, VALIDATE, DECODE, RESET, the reserved opcodes, WR_ERR and the
writes to other addresses are idempotent; a successful PROJECT or PROCESS emits one event and adds 1 to SUM_SEQ. -/
def Obligations.WhichWritesAreIdempotent : Prop :=
  (∀ (i : Instr) (s t : State), exec i s = .next t →
    i ≠ .project → i ≠ .process → (∀ d, i ≠ .wrFrameData d) → (∀ d, i ≠ .wrCrcData d) → (∀ a d, i ≠ .rd a d) →
    exec i t = .next t) ∧
  (∀ s : State, (∃ d, s.df = some d) → ∃ t e, exec .project s = .next t ∧ t.out = s.out ++ [e] ∧ t.sumSeq = s.sumSeq + 1#16) ∧
  (∀ s : State, s.frameLen.toNat = 256 →
    ∃ t e, exec .process s = .next t ∧ t.out = s.out ++ [e] ∧ t.sumSeq = s.sumSeq + 1#16)

/-- The checksum stream and the frame path do not touch one another (R164, D13): no command of the frame path reads or
changes CRC_ACC, and CRC_INIT and CRC_DATA read and change nothing else. -/
def Obligations.ChecksumStreamAndFramePathIndependent : Prop :=
  (∀ (i : Instr) (s : State) (v : U16), i ≠ .crcInit → (∀ d, i ≠ .wrCrcData d) → i ≠ .reset → (∀ a d, i ≠ .rd a d) →
    ∃ t, exec i s = .next t ∧ t.crcAcc = s.crcAcc ∧ exec i { s with crcAcc := v } = .next { t with crcAcc := v }) ∧
  (∀ (i : Instr) (acc : U16), (i = .crcInit ∨ ∃ d, i = .wrCrcData d) →
    ∃ acc' : U16, ∀ s : State, s.crcAcc = acc → exec i s = .next { s with crcAcc := acc' })

/-- In states that meet the invariant, the frame window shows the bytes a decoded frame was taken from: the raw fields
without a DEC register are read there (R38 item 1, D41). -/
def Obligations.DecodedViewMatchesFrameWindow : Prop :=
  ∀ (s : State) (d : DecodedFrame), Inv s → s.df = some d →
    (∀ k, (h : k < 20) → Reads8 s k d.header[k]) ∧
    (∀ k, (h : k < 3) → Reads8 s (20 + k) d.reservedActiveBits[k]) ∧
    (∀ i k, (hi : i < 7) → (hk : k < 8) → Reads8 s (32 + 16 * i + k) d.powerModules[i].reserved[k]) ∧
    (∀ k, (h : k < 2) → Reads8 s (150 + k) d.chargingInfo.reserved2[k] ∧ Reads8 s (158 + k) d.chargingInfo.reserved3[k]) ∧
    (∀ k, (h : k < 86) → Reads8 s (168 + k) d.padding[k]) ∧
    (∀ k, (h : k < 2) → Reads8 s (254 + k) d.checksumBytes[k]) ∧
    (d.checksumValid = true ↔ (statusByte s).getLsbD 1 = true)

/-- The start state meets the invariant. -/
def Obligations.InvariantHoldsAtReset : Prop := Inv State.reset

/-- R38 items 1 to 4, the buffer's canonical form and the summary's agreement with OUT are kept by every step from every
state that meets them. -/
def Obligations.StepKeepsInvariant : Prop := ∀ s t : State, Inv s → step s = .next t → Inv t

/-- The per-frame sequence of R334 from any state: FRAME_CLEAR, the bytes in order, PROCESS.
256 bytes are decoded, projected and emitted whatever their checksum, which the verdict and CRC_MISMATCH report.
Any other number of bytes gives LEN_ERR, no decoded frame, no summary and no event. -/
def Obligations.FrameSequenceDeliversSummary : Prop :=
  ∀ (s : State) (bs : List Byte), ∃ t,
    runInputs (assemble (.command .frameClear :: bs.map .feed ++ [.command .process])) s = .next t ∧
    t.crcAcc = s.crcAcc ∧ t.errOpc = s.errOpc ∧ t.reads = s.reads ∧
    ((h : bs.length = 256) → ∃ d : DecodedFrame,
      (∀ k, (hk : k < 256) → t.fb.read k = bs[k]) ∧ t.frameLen = 256#16 ∧
      t.df = some d ∧ d = decodeFields t.fb d.checksumValid ∧
      (d.checksumValid = true ↔ (bs[254] ++ bs[255] : U16) = checksum (bs.take 254)) ∧
      t.err = (if d.checksumValid = true then s.err else s.err ||| 0x02#8) ∧
      t.sum = some (project d) ∧ t.sumSeq = s.sumSeq + 1#16 ∧ t.out = s.out ++ [⟨t.sumSeq, project d⟩]) ∧
    (bs.length ≠ 256 → t.df = none ∧ t.err.getLsbD 0 = true ∧ t.sum = s.sum ∧ t.sumSeq = s.sumSeq ∧ t.out = s.out)

/-- R334 item 3: on a complete frame, VALIDATE, DECODE and PROJECT in that order do what PROCESS does, and so do DECODE
and PROJECT alone.  On any other length they leave NO_FRAME set beside what PROCESS leaves (R272). -/
def Obligations.ProcessIsValidateDecodeProject : Prop :=
  ∀ s : State, ∃ t, runInputs (assemble [.command .process]) s = .next t ∧
    (s.frameLen.toNat = 256 →
      runInputs (assemble [.command .validate, .command .decode, .command .project]) s = .next t ∧
      runInputs (assemble [.command .decode, .command .project]) s = .next t) ∧
    (s.frameLen.toNat ≠ 256 →
      runInputs (assemble [.command .validate, .command .decode, .command .project]) s =
        .next { t with err := t.err ||| 0x08#8 } ∧
      runInputs (assemble [.command .decode, .command .project]) s = .next { t with err := t.err ||| 0x08#8 })

/-- R38: the five invariants in every state reached from reset by a sequence of inputs.
Item 5 as: since the last reset, or the start, SUM is none exactly if no event was emitted. -/
def Obligations.ReachableStatesKeepInvariants : Prop :=
  ∀ (xs : List HostInput) (t : State), runInputs xs State.reset = .next t →
    DecodedViewCurrent t ∧ VerdictCurrent t ∧ ZeroBeyondLength t ∧ ErrReservedClear t ∧
    ((∀ x ∈ xs, ¬ Resets x) → (t.sum = none ↔ t.out = [])) ∧
    ∀ (pre post : List HostInput) (x : HostInput) (u : State), xs = pre ++ x :: post → Resets x →
      (∀ y ∈ post, ¬ Resets y) → runInputs pre State.reset = .next u → (t.sum = none ↔ t.out = u.out)

/-! ## Encoding -/

/-- R83, R84: the command opcodes, from words written out by the rule, and the reserved range. -/
def Obligations.CommandOpcodeMap : Prop :=
  decodeWord 0b1_100000000_00000000#18 = .nop ∧ decodeWord 0b1_100000000_00000001#18 = .crcInit ∧
  decodeWord 0b1_100000000_00000010#18 = .frameClear ∧ decodeWord 0b1_100000000_00000011#18 = .validate ∧
  decodeWord 0b1_100000000_00000100#18 = .decode ∧ decodeWord 0b1_100000000_00000101#18 = .project ∧
  decodeWord 0b1_100000000_00000110#18 = .process ∧ decodeWord 0b1_100000000_00000111#18 = .reset ∧
  ∀ d : Byte, 0x08 ≤ d.toNat → decodeWord (packWord true 0x100#9 d) ∈ reservedRows d

/-- R80: the dispatch on bit 17, bits 16:8 and bits 7:0 of any word. -/
def Obligations.DispatchByFields : Prop :=
  ∀ w : TxWord,
    let a : Addr := w.extractLsb' 8 9
    let d : Byte := w.extractLsb' 0 8
    (w.getLsbD 17 = false → decodeWord w = .rd a d) ∧
    (w.getLsbD 17 = true →
      (a = 0x100#9 → decodeWord w = decodeCommand d) ∧ (a = 0x102#9 → decodeWord w = .wrErr d) ∧
      (a = 0x103#9 → decodeWord w = .wrFrameData d) ∧ (a = 0x106#9 → decodeWord w = .wrCrcData d) ∧
      (a ∉ writableAddresses → decodeWord w ∈ readOnlyRows a d))

/-- One word of each address family, from the examples of the rules, decodes to its instruction. -/
def Obligations.SampleWordsDecode : Prop :=
  decodeWord 0x10800#18 = .rd 0x108#9 0x00#8 ∧ decodeWord 0x1015A#18 = .rd 0x101#9 0x5A#8 ∧
  decodeWord 0x30201#18 = .wrErr 0x01#8 ∧ decodeWord 0x303AB#18 = .wrFrameData 0xAB#8 ∧
  decodeWord 0x30600#18 = .wrCrcData 0x00#8 ∧ decodeWord 0x21055#18 = .wrRo000_0FF 0x010#9 0x55#8 ∧
  decodeWord 0x30080#18 = .cmdRsvd80_FF 0x80#8

/-- R86: every word matches exactly one row of the opcode table, the row of the instruction it decodes to. -/
def Obligations.TableRowsPartitionWords : Prop :=
  ∀ w : TxWord, (opcodeTable.filter fun r => r.admits w).map (·.mnemonic) = [(decodeWord w).mnemonic]

/-- Decoding the encoding of a well-formed instruction gives it back, at every value of every operand.
That a read's data byte is an operand, encoded as given, is the model's choice (notes/assumptions/10.md): R80 has an
encoder write 0 there. -/
def Obligations.DecodeOfEncode : Prop := ∀ i : Instr, i.wellFormed = true → decodeWord (encodeWord i) = i

/-- Every word decodes to a well-formed instruction whose encoding is the word: no two words share an instruction.
For read words with D other than 0 this is the model's choice, DESIGN CHOICE of notes/assumptions/10.md: RD keeps the
ignored byte and the encoder packs it, where R80 has an encoder write 0 and R140 calls a read with any D the same read. -/
def Obligations.EncodeOfDecode : Prop :=
  ∀ w : TxWord, (decodeWord w).wellFormed = true ∧ encodeWord (decodeWord w) = w
end

