-- ==== Sys2Proof/Laws/Checksum.lean ====
section
/-! SUPPORT. The shift step of R160 can be undone, and the validator's two cases (R182). -/

namespace Sys2Proof.Machine

/-- Bit 15 after a shift is the bit shifted out: 0xA001 has bit 15 set and `acc >> 1` has it clear. -/
theorem crcShift_msb (acc : U16) : (crcShift acc).getLsbD 15 = acc.getLsbD 0 := by
  unfold crcShift
  cases h : acc.getLsbD 0
  · simp
  · simp [Config.crcPolyReflected]

/-- A shift step maps no two accumulators to one. -/
theorem crcShift_injective : Function.Injective crcShift := by
  intro x y h
  have h0 : x.getLsbD 0 = y.getLsbD 0 := by rw [← crcShift_msb x, h, crcShift_msb y]
  have hs : x >>> 1 = y >>> 1 := by
    unfold crcShift at h
    rw [h0] at h
    cases hy : y.getLsbD 0
    · simpa only [hy, Bool.false_eq_true, if_false] using h
    · simp only [hy, if_true] at h
      exact BitVec.xor_left_inj _ |>.mp h
  apply BitVec.eq_of_getLsbD_eq
  intro i _
  rcases i with _ | i
  · exact h0
  · have := congrArg (fun v => v.getLsbD i) hs
    simpa [BitVec.getLsbD_ushiftRight, Nat.add_comm] using this

/-- So do `n` of them. -/
theorem crcShifts_injective (n : Nat) : Function.Injective (crcShifts n) := by
  induction n with
  | zero => exact fun _ _ h => h
  | succ n ih => exact fun x y h => crcShift_injective (ih h)

/-- A wrong length gives the fixed result (R182, D11). -/
theorem validate_of_ne (fb : Memory) (len : U16) (h : len.toNat ≠ 256) : validate fb len = ⟨false, false, 0, 0⟩ := by
  simp [validate, h]

/-- At 256 bytes both checksums are reported and compared (R182). -/
theorem validate_of_eq (fb : Memory) (len : U16) (h : len.toNat = 256) :
    validate fb len =
      ⟨true, decide (be16 fb 254 = transform (checksum (sliceList fb 0 254))),
        transform (checksum (sliceList fb 0 254)), be16 fb 254⟩ := by
  simp [validate, h]

@[simp] theorem validate_lengthOk (fb : Memory) (len : U16) : (validate fb len).lengthOk = decide (len.toNat = 256) := by
  by_cases h : len.toNat = 256
  · simp [validate_of_eq fb len h, h]
  · simp [validate_of_ne fb len h, h]

/-- The ERR register after a verdict. -/
theorem State.flagVerdict_err (s : State) (v : ValResult) :
    (s.flagVerdict v).err =
      if v.lengthOk = false then s.err ||| 0x01#8 else if v.checksumValid = false then s.err ||| 0x02#8 else s.err := by
  unfold State.flagVerdict
  split
  · rfl
  · split <;> rfl

end Sys2Proof.Machine
end

