-- ==== Sys2Proof/Laws/Decode.lean ====
section
/-! SUPPORT. The packed word and its three fields (R80): each is read back, and the word is its fields. -/

namespace Sys2Proof

/-- The bits of a packed word: D in 7:0, A in 16:8, W in 17. -/
theorem packWord_getLsbD (w : Bool) (a : Addr) (d : Byte) (i : Nat) :
    (packWord w a d).getLsbD i =
      if i < 8 then d.getLsbD i else if i < 17 then a.getLsbD (i - 8) else (decide (i = 17) && w) := by
  show ((BitVec.ofBool w ++ a) ++ d : BitVec (1 + 9 + 8)).getLsbD i = _
  rw [BitVec.getLsbD_append, BitVec.getLsbD_append, BitVec.getLsbD_ofBool]
  by_cases h8 : i < 8
  · simp [h8]
  · by_cases h17 : i < 17
    · simp [h8, h17, (by omega : i - 8 < 9)]
    · have : ¬ i - 8 < 9 := by omega
      have e : (i - 8 - 9 = 0) = (i = 17) := by simp only [eq_iff_iff]; omega
      simp [h8, h17, this, e]

@[simp] theorem txWrite_packWord (w : Bool) (a : Addr) (d : Byte) : txWrite (packWord w a d) = w := by
  unfold txWrite
  rw [packWord_getLsbD]
  simp

@[simp] theorem txAddr_packWord (w : Bool) (a : Addr) (d : Byte) : txAddr (packWord w a d) = a := by
  apply BitVec.eq_of_getLsbD_eq
  intro i hi
  simp [txAddr, packWord_getLsbD, hi, (by omega : 8 + i < 17)]

@[simp] theorem txData_packWord (w : Bool) (a : Addr) (d : Byte) : txData (packWord w a d) = d := by
  apply BitVec.eq_of_getLsbD_eq
  intro i hi
  simp [txData, packWord_getLsbD, hi]

/-- A word is the packing of its fields. -/
theorem packWord_fields (t : TxWord) : packWord (txWrite t) (txAddr t) (txData t) = t := by
  apply BitVec.eq_of_getLsbD_eq
  intro i hi
  rw [packWord_getLsbD]
  simp only [txWrite, txAddr, txData, BitVec.getLsbD_extractLsb']
  by_cases h8 : i < 8
  · simp [h8]
  · by_cases h17 : i < 17
    · simp [h8, h17, (by omega : i - 8 < 9), (by omega : 8 + (i - 8) = i)]
    · have : i = 17 := by omega
      subst this
      simp

/-- Decoding a packed word is the dispatch on its fields. -/
@[simp] theorem decodeWord_packWord (w : Bool) (a : Addr) (d : Byte) :
    decodeWord (packWord w a d) = decodeFieldsOfWord w a d := by
  simp [decodeWord]

/-- Masking a packed word masks its fields. -/
theorem packWord_and (w w' : Bool) (a a' : Addr) (d d' : Byte) :
    packWord w a d &&& packWord w' a' d' = packWord (w && w') (a &&& a') (d &&& d') := by
  apply BitVec.eq_of_getLsbD_eq
  intro i hi
  rw [BitVec.getLsbD_and, packWord_getLsbD, packWord_getLsbD, packWord_getLsbD]
  by_cases h8 : i < 8
  · simp [h8]
  · by_cases h17 : i < 17
    · simp [h8, h17]
    · have : i = 17 := by omega
      simp [this]

end Sys2Proof
end

