-- ==== Sys2Proof/Laws/State.lean ====
section
/-! SUPPORT. One lemma per field per update of the state, true by rfl, so that no later proof unfolds a record update. -/

namespace Sys2Proof.Machine

/-! ### seterr -/

@[simp] theorem State.seterr_fb (s : State) (f : ErrFlag) : (s.seterr f).fb = s.fb := rfl
@[simp] theorem State.seterr_frameLen (s : State) (f : ErrFlag) : (s.seterr f).frameLen = s.frameLen := rfl
@[simp] theorem State.seterr_crcAcc (s : State) (f : ErrFlag) : (s.seterr f).crcAcc = s.crcAcc := rfl
@[simp] theorem State.seterr_vr (s : State) (f : ErrFlag) : (s.seterr f).vr = s.vr := rfl
@[simp] theorem State.seterr_df (s : State) (f : ErrFlag) : (s.seterr f).df = s.df := rfl
@[simp] theorem State.seterr_sum (s : State) (f : ErrFlag) : (s.seterr f).sum = s.sum := rfl
@[simp] theorem State.seterr_sumSeq (s : State) (f : ErrFlag) : (s.seterr f).sumSeq = s.sumSeq := rfl
@[simp] theorem State.seterr_err (s : State) (f : ErrFlag) : (s.seterr f).err = s.err ||| f.mask := rfl
@[simp] theorem State.seterr_errOpc (s : State) (f : ErrFlag) : (s.seterr f).errOpc = s.errOpc := rfl
@[simp] theorem State.seterr_out (s : State) (f : ErrFlag) : (s.seterr f).out = s.out := rfl
@[simp] theorem State.seterr_pending (s : State) (f : ErrFlag) : (s.seterr f).pending = s.pending := rfl
@[simp] theorem State.seterr_reads (s : State) (f : ErrFlag) : (s.seterr f).reads = s.reads := rfl

/-! ### countFrameByte -/

@[simp] theorem State.countFrameByte_fb (s : State) : (s.countFrameByte).fb = s.fb := rfl
@[simp] theorem State.countFrameByte_frameLen (s : State) : (s.countFrameByte).frameLen = nextFrameLen s.frameLen := rfl
@[simp] theorem State.countFrameByte_crcAcc (s : State) : (s.countFrameByte).crcAcc = s.crcAcc := rfl
@[simp] theorem State.countFrameByte_vr (s : State) : (s.countFrameByte).vr = none := rfl
@[simp] theorem State.countFrameByte_df (s : State) : (s.countFrameByte).df = none := rfl
@[simp] theorem State.countFrameByte_sum (s : State) : (s.countFrameByte).sum = s.sum := rfl
@[simp] theorem State.countFrameByte_sumSeq (s : State) : (s.countFrameByte).sumSeq = s.sumSeq := rfl
@[simp] theorem State.countFrameByte_err (s : State) : (s.countFrameByte).err = s.err := rfl
@[simp] theorem State.countFrameByte_errOpc (s : State) : (s.countFrameByte).errOpc = s.errOpc := rfl
@[simp] theorem State.countFrameByte_out (s : State) : (s.countFrameByte).out = s.out := rfl
@[simp] theorem State.countFrameByte_pending (s : State) : (s.countFrameByte).pending = s.pending := rfl
@[simp] theorem State.countFrameByte_reads (s : State) : (s.countFrameByte).reads = s.reads := rfl

/-! ### clearFrame -/

@[simp] theorem State.clearFrame_fb (s : State) : (s.clearFrame).fb = [] := rfl
@[simp] theorem State.clearFrame_frameLen (s : State) : (s.clearFrame).frameLen = 0x0000#16 := rfl
@[simp] theorem State.clearFrame_crcAcc (s : State) : (s.clearFrame).crcAcc = s.crcAcc := rfl
@[simp] theorem State.clearFrame_vr (s : State) : (s.clearFrame).vr = none := rfl
@[simp] theorem State.clearFrame_df (s : State) : (s.clearFrame).df = none := rfl
@[simp] theorem State.clearFrame_sum (s : State) : (s.clearFrame).sum = s.sum := rfl
@[simp] theorem State.clearFrame_sumSeq (s : State) : (s.clearFrame).sumSeq = s.sumSeq := rfl
@[simp] theorem State.clearFrame_err (s : State) : (s.clearFrame).err = s.err := rfl
@[simp] theorem State.clearFrame_errOpc (s : State) : (s.clearFrame).errOpc = s.errOpc := rfl
@[simp] theorem State.clearFrame_out (s : State) : (s.clearFrame).out = s.out := rfl
@[simp] theorem State.clearFrame_pending (s : State) : (s.clearFrame).pending = s.pending := rfl
@[simp] theorem State.clearFrame_reads (s : State) : (s.clearFrame).reads = s.reads := rfl

/-! ### setVr -/

@[simp] theorem State.setVr_fb (s : State) (v : ValResult) : (s.setVr v).fb = s.fb := rfl
@[simp] theorem State.setVr_frameLen (s : State) (v : ValResult) : (s.setVr v).frameLen = s.frameLen := rfl
@[simp] theorem State.setVr_crcAcc (s : State) (v : ValResult) : (s.setVr v).crcAcc = s.crcAcc := rfl
@[simp] theorem State.setVr_vr (s : State) (v : ValResult) : (s.setVr v).vr = some v := rfl
@[simp] theorem State.setVr_df (s : State) (v : ValResult) : (s.setVr v).df = s.df := rfl
@[simp] theorem State.setVr_sum (s : State) (v : ValResult) : (s.setVr v).sum = s.sum := rfl
@[simp] theorem State.setVr_sumSeq (s : State) (v : ValResult) : (s.setVr v).sumSeq = s.sumSeq := rfl
@[simp] theorem State.setVr_err (s : State) (v : ValResult) : (s.setVr v).err = s.err := rfl
@[simp] theorem State.setVr_errOpc (s : State) (v : ValResult) : (s.setVr v).errOpc = s.errOpc := rfl
@[simp] theorem State.setVr_out (s : State) (v : ValResult) : (s.setVr v).out = s.out := rfl
@[simp] theorem State.setVr_pending (s : State) (v : ValResult) : (s.setVr v).pending = s.pending := rfl
@[simp] theorem State.setVr_reads (s : State) (v : ValResult) : (s.setVr v).reads = s.reads := rfl

/-! ### setDf -/

@[simp] theorem State.setDf_fb (s : State) (d : Option DecodedFrame) : (s.setDf d).fb = s.fb := rfl
@[simp] theorem State.setDf_frameLen (s : State) (d : Option DecodedFrame) : (s.setDf d).frameLen = s.frameLen := rfl
@[simp] theorem State.setDf_crcAcc (s : State) (d : Option DecodedFrame) : (s.setDf d).crcAcc = s.crcAcc := rfl
@[simp] theorem State.setDf_vr (s : State) (d : Option DecodedFrame) : (s.setDf d).vr = s.vr := rfl
@[simp] theorem State.setDf_df (s : State) (d : Option DecodedFrame) : (s.setDf d).df = d := rfl
@[simp] theorem State.setDf_sum (s : State) (d : Option DecodedFrame) : (s.setDf d).sum = s.sum := rfl
@[simp] theorem State.setDf_sumSeq (s : State) (d : Option DecodedFrame) : (s.setDf d).sumSeq = s.sumSeq := rfl
@[simp] theorem State.setDf_err (s : State) (d : Option DecodedFrame) : (s.setDf d).err = s.err := rfl
@[simp] theorem State.setDf_errOpc (s : State) (d : Option DecodedFrame) : (s.setDf d).errOpc = s.errOpc := rfl
@[simp] theorem State.setDf_out (s : State) (d : Option DecodedFrame) : (s.setDf d).out = s.out := rfl
@[simp] theorem State.setDf_pending (s : State) (d : Option DecodedFrame) : (s.setDf d).pending = s.pending := rfl
@[simp] theorem State.setDf_reads (s : State) (d : Option DecodedFrame) : (s.setDf d).reads = s.reads := rfl

/-! ### emit -/

@[simp] theorem State.emit_fb (s : State) (e : SummaryEvent) : (s.emit e).fb = s.fb := rfl
@[simp] theorem State.emit_frameLen (s : State) (e : SummaryEvent) : (s.emit e).frameLen = s.frameLen := rfl
@[simp] theorem State.emit_crcAcc (s : State) (e : SummaryEvent) : (s.emit e).crcAcc = s.crcAcc := rfl
@[simp] theorem State.emit_vr (s : State) (e : SummaryEvent) : (s.emit e).vr = s.vr := rfl
@[simp] theorem State.emit_df (s : State) (e : SummaryEvent) : (s.emit e).df = s.df := rfl
@[simp] theorem State.emit_sum (s : State) (e : SummaryEvent) : (s.emit e).sum = s.sum := rfl
@[simp] theorem State.emit_sumSeq (s : State) (e : SummaryEvent) : (s.emit e).sumSeq = s.sumSeq := rfl
@[simp] theorem State.emit_err (s : State) (e : SummaryEvent) : (s.emit e).err = s.err := rfl
@[simp] theorem State.emit_errOpc (s : State) (e : SummaryEvent) : (s.emit e).errOpc = s.errOpc := rfl
@[simp] theorem State.emit_out (s : State) (e : SummaryEvent) : (s.emit e).out = s.out ++ [e] := rfl
@[simp] theorem State.emit_pending (s : State) (e : SummaryEvent) : (s.emit e).pending = s.pending := rfl
@[simp] theorem State.emit_reads (s : State) (e : SummaryEvent) : (s.emit e).reads = s.reads := rfl

/-! ### setSummary -/

@[simp] theorem State.setSummary_fb (s : State) (z : TelemetrySummary) : (s.setSummary z).fb = s.fb := rfl
@[simp] theorem State.setSummary_frameLen (s : State) (z : TelemetrySummary) : (s.setSummary z).frameLen = s.frameLen := rfl
@[simp] theorem State.setSummary_crcAcc (s : State) (z : TelemetrySummary) : (s.setSummary z).crcAcc = s.crcAcc := rfl
@[simp] theorem State.setSummary_vr (s : State) (z : TelemetrySummary) : (s.setSummary z).vr = s.vr := rfl
@[simp] theorem State.setSummary_df (s : State) (z : TelemetrySummary) : (s.setSummary z).df = s.df := rfl
@[simp] theorem State.setSummary_sum (s : State) (z : TelemetrySummary) : (s.setSummary z).sum = some z := rfl
@[simp] theorem State.setSummary_sumSeq (s : State) (z : TelemetrySummary) : (s.setSummary z).sumSeq = s.sumSeq + 1#16 := rfl
@[simp] theorem State.setSummary_err (s : State) (z : TelemetrySummary) : (s.setSummary z).err = s.err := rfl
@[simp] theorem State.setSummary_errOpc (s : State) (z : TelemetrySummary) : (s.setSummary z).errOpc = s.errOpc := rfl
@[simp] theorem State.setSummary_out (s : State) (z : TelemetrySummary) : (s.setSummary z).out = s.out := rfl
@[simp] theorem State.setSummary_pending (s : State) (z : TelemetrySummary) : (s.setSummary z).pending = s.pending := rfl
@[simp] theorem State.setSummary_reads (s : State) (z : TelemetrySummary) : (s.setSummary z).reads = s.reads := rfl

/-! ### setCrcAcc -/

@[simp] theorem State.setCrcAcc_fb (s : State) (v : U16) : (s.setCrcAcc v).fb = s.fb := rfl
@[simp] theorem State.setCrcAcc_frameLen (s : State) (v : U16) : (s.setCrcAcc v).frameLen = s.frameLen := rfl
@[simp] theorem State.setCrcAcc_crcAcc (s : State) (v : U16) : (s.setCrcAcc v).crcAcc = v := rfl
@[simp] theorem State.setCrcAcc_vr (s : State) (v : U16) : (s.setCrcAcc v).vr = s.vr := rfl
@[simp] theorem State.setCrcAcc_df (s : State) (v : U16) : (s.setCrcAcc v).df = s.df := rfl
@[simp] theorem State.setCrcAcc_sum (s : State) (v : U16) : (s.setCrcAcc v).sum = s.sum := rfl
@[simp] theorem State.setCrcAcc_sumSeq (s : State) (v : U16) : (s.setCrcAcc v).sumSeq = s.sumSeq := rfl
@[simp] theorem State.setCrcAcc_err (s : State) (v : U16) : (s.setCrcAcc v).err = s.err := rfl
@[simp] theorem State.setCrcAcc_errOpc (s : State) (v : U16) : (s.setCrcAcc v).errOpc = s.errOpc := rfl
@[simp] theorem State.setCrcAcc_out (s : State) (v : U16) : (s.setCrcAcc v).out = s.out := rfl
@[simp] theorem State.setCrcAcc_pending (s : State) (v : U16) : (s.setCrcAcc v).pending = s.pending := rfl
@[simp] theorem State.setCrcAcc_reads (s : State) (v : U16) : (s.setCrcAcc v).reads = s.reads := rfl

/-! ### setErrOpc -/

@[simp] theorem State.setErrOpc_fb (s : State) (d : Byte) : (s.setErrOpc d).fb = s.fb := rfl
@[simp] theorem State.setErrOpc_frameLen (s : State) (d : Byte) : (s.setErrOpc d).frameLen = s.frameLen := rfl
@[simp] theorem State.setErrOpc_crcAcc (s : State) (d : Byte) : (s.setErrOpc d).crcAcc = s.crcAcc := rfl
@[simp] theorem State.setErrOpc_vr (s : State) (d : Byte) : (s.setErrOpc d).vr = s.vr := rfl
@[simp] theorem State.setErrOpc_df (s : State) (d : Byte) : (s.setErrOpc d).df = s.df := rfl
@[simp] theorem State.setErrOpc_sum (s : State) (d : Byte) : (s.setErrOpc d).sum = s.sum := rfl
@[simp] theorem State.setErrOpc_sumSeq (s : State) (d : Byte) : (s.setErrOpc d).sumSeq = s.sumSeq := rfl
@[simp] theorem State.setErrOpc_err (s : State) (d : Byte) : (s.setErrOpc d).err = s.err := rfl
@[simp] theorem State.setErrOpc_errOpc (s : State) (d : Byte) : (s.setErrOpc d).errOpc = d := rfl
@[simp] theorem State.setErrOpc_out (s : State) (d : Byte) : (s.setErrOpc d).out = s.out := rfl
@[simp] theorem State.setErrOpc_pending (s : State) (d : Byte) : (s.setErrOpc d).pending = s.pending := rfl
@[simp] theorem State.setErrOpc_reads (s : State) (d : Byte) : (s.setErrOpc d).reads = s.reads := rfl

/-! ### clearErr -/

@[simp] theorem State.clearErr_fb (s : State) (d : Byte) : (s.clearErr d).fb = s.fb := rfl
@[simp] theorem State.clearErr_frameLen (s : State) (d : Byte) : (s.clearErr d).frameLen = s.frameLen := rfl
@[simp] theorem State.clearErr_crcAcc (s : State) (d : Byte) : (s.clearErr d).crcAcc = s.crcAcc := rfl
@[simp] theorem State.clearErr_vr (s : State) (d : Byte) : (s.clearErr d).vr = s.vr := rfl
@[simp] theorem State.clearErr_df (s : State) (d : Byte) : (s.clearErr d).df = s.df := rfl
@[simp] theorem State.clearErr_sum (s : State) (d : Byte) : (s.clearErr d).sum = s.sum := rfl
@[simp] theorem State.clearErr_sumSeq (s : State) (d : Byte) : (s.clearErr d).sumSeq = s.sumSeq := rfl
@[simp] theorem State.clearErr_err (s : State) (d : Byte) : (s.clearErr d).err = clearFlags s.err d := rfl
@[simp] theorem State.clearErr_errOpc (s : State) (d : Byte) : (s.clearErr d).errOpc = s.errOpc := rfl
@[simp] theorem State.clearErr_out (s : State) (d : Byte) : (s.clearErr d).out = s.out := rfl
@[simp] theorem State.clearErr_pending (s : State) (d : Byte) : (s.clearErr d).pending = s.pending := rfl
@[simp] theorem State.clearErr_reads (s : State) (d : Byte) : (s.clearErr d).reads = s.reads := rfl

/-! ### toReset -/

@[simp] theorem State.toReset_fb (s : State) : (s.toReset).fb = [] := rfl
@[simp] theorem State.toReset_frameLen (s : State) : (s.toReset).frameLen = 0x0000#16 := rfl
@[simp] theorem State.toReset_crcAcc (s : State) : (s.toReset).crcAcc = 0xFFFF#16 := rfl
@[simp] theorem State.toReset_vr (s : State) : (s.toReset).vr = none := rfl
@[simp] theorem State.toReset_df (s : State) : (s.toReset).df = none := rfl
@[simp] theorem State.toReset_sum (s : State) : (s.toReset).sum = none := rfl
@[simp] theorem State.toReset_sumSeq (s : State) : (s.toReset).sumSeq = 0x0000#16 := rfl
@[simp] theorem State.toReset_err (s : State) : (s.toReset).err = 0x00#8 := rfl
@[simp] theorem State.toReset_errOpc (s : State) : (s.toReset).errOpc = 0x00#8 := rfl
@[simp] theorem State.toReset_out (s : State) : (s.toReset).out = s.out := rfl
@[simp] theorem State.toReset_pending (s : State) : (s.toReset).pending = s.pending := rfl
@[simp] theorem State.toReset_reads (s : State) : (s.toReset).reads = s.reads := rfl

/-! ### respond -/

@[simp] theorem State.respond_fb (s : State) (r : Byte) : (s.respond r).fb = s.fb := rfl
@[simp] theorem State.respond_frameLen (s : State) (r : Byte) : (s.respond r).frameLen = s.frameLen := rfl
@[simp] theorem State.respond_crcAcc (s : State) (r : Byte) : (s.respond r).crcAcc = s.crcAcc := rfl
@[simp] theorem State.respond_vr (s : State) (r : Byte) : (s.respond r).vr = s.vr := rfl
@[simp] theorem State.respond_df (s : State) (r : Byte) : (s.respond r).df = s.df := rfl
@[simp] theorem State.respond_sum (s : State) (r : Byte) : (s.respond r).sum = s.sum := rfl
@[simp] theorem State.respond_sumSeq (s : State) (r : Byte) : (s.respond r).sumSeq = s.sumSeq := rfl
@[simp] theorem State.respond_err (s : State) (r : Byte) : (s.respond r).err = s.err := rfl
@[simp] theorem State.respond_errOpc (s : State) (r : Byte) : (s.respond r).errOpc = s.errOpc := rfl
@[simp] theorem State.respond_out (s : State) (r : Byte) : (s.respond r).out = s.out := rfl
@[simp] theorem State.respond_pending (s : State) (r : Byte) : (s.respond r).pending = s.pending := rfl
@[simp] theorem State.respond_reads (s : State) (r : Byte) : (s.respond r).reads = s.reads ++ [r] := rfl

/-! ### issueNext -/

@[simp] theorem State.issueNext_fb (s : State) (x : HostInput) : (s.issueNext x).fb = s.fb := rfl
@[simp] theorem State.issueNext_frameLen (s : State) (x : HostInput) : (s.issueNext x).frameLen = s.frameLen := rfl
@[simp] theorem State.issueNext_crcAcc (s : State) (x : HostInput) : (s.issueNext x).crcAcc = s.crcAcc := rfl
@[simp] theorem State.issueNext_vr (s : State) (x : HostInput) : (s.issueNext x).vr = s.vr := rfl
@[simp] theorem State.issueNext_df (s : State) (x : HostInput) : (s.issueNext x).df = s.df := rfl
@[simp] theorem State.issueNext_sum (s : State) (x : HostInput) : (s.issueNext x).sum = s.sum := rfl
@[simp] theorem State.issueNext_sumSeq (s : State) (x : HostInput) : (s.issueNext x).sumSeq = s.sumSeq := rfl
@[simp] theorem State.issueNext_err (s : State) (x : HostInput) : (s.issueNext x).err = s.err := rfl
@[simp] theorem State.issueNext_errOpc (s : State) (x : HostInput) : (s.issueNext x).errOpc = s.errOpc := rfl
@[simp] theorem State.issueNext_out (s : State) (x : HostInput) : (s.issueNext x).out = s.out := rfl
@[simp] theorem State.issueNext_pending (s : State) (x : HostInput) : (s.issueNext x).pending = x :: s.pending := rfl
@[simp] theorem State.issueNext_reads (s : State) (x : HostInput) : (s.issueNext x).reads = s.reads := rfl

/-! ### withInputs -/

@[simp] theorem State.withInputs_fb (s : State) (xs : List HostInput) : (s.withInputs xs).fb = s.fb := rfl
@[simp] theorem State.withInputs_frameLen (s : State) (xs : List HostInput) : (s.withInputs xs).frameLen = s.frameLen := rfl
@[simp] theorem State.withInputs_crcAcc (s : State) (xs : List HostInput) : (s.withInputs xs).crcAcc = s.crcAcc := rfl
@[simp] theorem State.withInputs_vr (s : State) (xs : List HostInput) : (s.withInputs xs).vr = s.vr := rfl
@[simp] theorem State.withInputs_df (s : State) (xs : List HostInput) : (s.withInputs xs).df = s.df := rfl
@[simp] theorem State.withInputs_sum (s : State) (xs : List HostInput) : (s.withInputs xs).sum = s.sum := rfl
@[simp] theorem State.withInputs_sumSeq (s : State) (xs : List HostInput) : (s.withInputs xs).sumSeq = s.sumSeq := rfl
@[simp] theorem State.withInputs_err (s : State) (xs : List HostInput) : (s.withInputs xs).err = s.err := rfl
@[simp] theorem State.withInputs_errOpc (s : State) (xs : List HostInput) : (s.withInputs xs).errOpc = s.errOpc := rfl
@[simp] theorem State.withInputs_out (s : State) (xs : List HostInput) : (s.withInputs xs).out = s.out := rfl
@[simp] theorem State.withInputs_pending (s : State) (xs : List HostInput) : (s.withInputs xs).pending = xs := rfl
@[simp] theorem State.withInputs_reads (s : State) (xs : List HostInput) : (s.withInputs xs).reads = s.reads := rfl

/-! ### storeFrameByte: only `fb` or `err` changes -/

@[simp] theorem State.storeFrameByte_frameLen (s : State) (d : Byte) : (s.storeFrameByte d).frameLen = s.frameLen := by
  unfold State.storeFrameByte; split <;> rfl
@[simp] theorem State.storeFrameByte_crcAcc (s : State) (d : Byte) : (s.storeFrameByte d).crcAcc = s.crcAcc := by
  unfold State.storeFrameByte; split <;> rfl
@[simp] theorem State.storeFrameByte_vr (s : State) (d : Byte) : (s.storeFrameByte d).vr = s.vr := by
  unfold State.storeFrameByte; split <;> rfl
@[simp] theorem State.storeFrameByte_df (s : State) (d : Byte) : (s.storeFrameByte d).df = s.df := by
  unfold State.storeFrameByte; split <;> rfl
@[simp] theorem State.storeFrameByte_sum (s : State) (d : Byte) : (s.storeFrameByte d).sum = s.sum := by
  unfold State.storeFrameByte; split <;> rfl
@[simp] theorem State.storeFrameByte_sumSeq (s : State) (d : Byte) : (s.storeFrameByte d).sumSeq = s.sumSeq := by
  unfold State.storeFrameByte; split <;> rfl
@[simp] theorem State.storeFrameByte_errOpc (s : State) (d : Byte) : (s.storeFrameByte d).errOpc = s.errOpc := by
  unfold State.storeFrameByte; split <;> rfl
@[simp] theorem State.storeFrameByte_out (s : State) (d : Byte) : (s.storeFrameByte d).out = s.out := by
  unfold State.storeFrameByte; split <;> rfl
@[simp] theorem State.storeFrameByte_pending (s : State) (d : Byte) : (s.storeFrameByte d).pending = s.pending := by
  unfold State.storeFrameByte; split <;> rfl
@[simp] theorem State.storeFrameByte_reads (s : State) (d : Byte) : (s.storeFrameByte d).reads = s.reads := by
  unfold State.storeFrameByte; split <;> rfl

/-! ### flagVerdict: only `err` changes -/

@[simp] theorem State.flagVerdict_fb (s : State) (v : ValResult) : (s.flagVerdict v).fb = s.fb := by
  unfold State.flagVerdict; split <;> [rfl; (split <;> rfl)]
@[simp] theorem State.flagVerdict_frameLen (s : State) (v : ValResult) : (s.flagVerdict v).frameLen = s.frameLen := by
  unfold State.flagVerdict; split <;> [rfl; (split <;> rfl)]
@[simp] theorem State.flagVerdict_crcAcc (s : State) (v : ValResult) : (s.flagVerdict v).crcAcc = s.crcAcc := by
  unfold State.flagVerdict; split <;> [rfl; (split <;> rfl)]
@[simp] theorem State.flagVerdict_vr (s : State) (v : ValResult) : (s.flagVerdict v).vr = s.vr := by
  unfold State.flagVerdict; split <;> [rfl; (split <;> rfl)]
@[simp] theorem State.flagVerdict_df (s : State) (v : ValResult) : (s.flagVerdict v).df = s.df := by
  unfold State.flagVerdict; split <;> [rfl; (split <;> rfl)]
@[simp] theorem State.flagVerdict_sum (s : State) (v : ValResult) : (s.flagVerdict v).sum = s.sum := by
  unfold State.flagVerdict; split <;> [rfl; (split <;> rfl)]
@[simp] theorem State.flagVerdict_sumSeq (s : State) (v : ValResult) : (s.flagVerdict v).sumSeq = s.sumSeq := by
  unfold State.flagVerdict; split <;> [rfl; (split <;> rfl)]
@[simp] theorem State.flagVerdict_errOpc (s : State) (v : ValResult) : (s.flagVerdict v).errOpc = s.errOpc := by
  unfold State.flagVerdict; split <;> [rfl; (split <;> rfl)]
@[simp] theorem State.flagVerdict_out (s : State) (v : ValResult) : (s.flagVerdict v).out = s.out := by
  unfold State.flagVerdict; split <;> [rfl; (split <;> rfl)]
@[simp] theorem State.flagVerdict_pending (s : State) (v : ValResult) : (s.flagVerdict v).pending = s.pending := by
  unfold State.flagVerdict; split <;> [rfl; (split <;> rfl)]
@[simp] theorem State.flagVerdict_reads (s : State) (v : ValResult) : (s.flagVerdict v).reads = s.reads := by
  unfold State.flagVerdict; split <;> [rfl; (split <;> rfl)]

/-! ### runValidation: `vr` and `err` change -/

@[simp] theorem State.runValidation_fb (s : State) : s.runValidation.fb = s.fb := by
  simp [State.runValidation]
@[simp] theorem State.runValidation_frameLen (s : State) : s.runValidation.frameLen = s.frameLen := by
  simp [State.runValidation]
@[simp] theorem State.runValidation_crcAcc (s : State) : s.runValidation.crcAcc = s.crcAcc := by
  simp [State.runValidation]
@[simp] theorem State.runValidation_vr (s : State) : s.runValidation.vr = some (validate s.fb s.frameLen) := by
  simp [State.runValidation]
@[simp] theorem State.runValidation_df (s : State) : s.runValidation.df = s.df := by
  simp [State.runValidation]
@[simp] theorem State.runValidation_sum (s : State) : s.runValidation.sum = s.sum := by
  simp [State.runValidation]
@[simp] theorem State.runValidation_sumSeq (s : State) : s.runValidation.sumSeq = s.sumSeq := by
  simp [State.runValidation]
@[simp] theorem State.runValidation_errOpc (s : State) : s.runValidation.errOpc = s.errOpc := by
  simp [State.runValidation]
@[simp] theorem State.runValidation_out (s : State) : s.runValidation.out = s.out := by
  simp [State.runValidation]
@[simp] theorem State.runValidation_pending (s : State) : s.runValidation.pending = s.pending := by
  simp [State.runValidation]
@[simp] theorem State.runValidation_reads (s : State) : s.runValidation.reads = s.reads := by
  simp [State.runValidation]

/-! ### runDecode: `vr`, `df` and `err` change -/

@[simp] theorem State.runDecode_fb (s : State) : s.runDecode.fb = s.fb := by
  simp [State.runDecode]
@[simp] theorem State.runDecode_frameLen (s : State) : s.runDecode.frameLen = s.frameLen := by
  simp [State.runDecode]
@[simp] theorem State.runDecode_crcAcc (s : State) : s.runDecode.crcAcc = s.crcAcc := by
  simp [State.runDecode]
@[simp] theorem State.runDecode_vr (s : State) : s.runDecode.vr = some (validate s.fb s.frameLen) := by
  simp [State.runDecode]
@[simp] theorem State.runDecode_df (s : State) : s.runDecode.df = decodeFrame s.fb s.frameLen := by
  simp [State.runDecode]
@[simp] theorem State.runDecode_sum (s : State) : s.runDecode.sum = s.sum := by
  simp [State.runDecode]
@[simp] theorem State.runDecode_sumSeq (s : State) : s.runDecode.sumSeq = s.sumSeq := by
  simp [State.runDecode]
@[simp] theorem State.runDecode_errOpc (s : State) : s.runDecode.errOpc = s.errOpc := by
  simp [State.runDecode]
@[simp] theorem State.runDecode_out (s : State) : s.runDecode.out = s.out := by
  simp [State.runDecode]
@[simp] theorem State.runDecode_pending (s : State) : s.runDecode.pending = s.pending := by
  simp [State.runDecode]
@[simp] theorem State.runDecode_reads (s : State) : s.runDecode.reads = s.reads := by
  simp [State.runDecode]
@[simp] theorem State.runDecode_err (s : State) : s.runDecode.err = s.runValidation.err := rfl

/-! ### publish: `sum`, `sumSeq` and `out` change -/

@[simp] theorem State.publish_fb (s : State) (z : TelemetrySummary) : (s.publish z).fb = s.fb := rfl
@[simp] theorem State.publish_frameLen (s : State) (z : TelemetrySummary) : (s.publish z).frameLen = s.frameLen := rfl
@[simp] theorem State.publish_crcAcc (s : State) (z : TelemetrySummary) : (s.publish z).crcAcc = s.crcAcc := rfl
@[simp] theorem State.publish_vr (s : State) (z : TelemetrySummary) : (s.publish z).vr = s.vr := rfl
@[simp] theorem State.publish_df (s : State) (z : TelemetrySummary) : (s.publish z).df = s.df := rfl
@[simp] theorem State.publish_sum (s : State) (z : TelemetrySummary) : (s.publish z).sum = some z := rfl
@[simp] theorem State.publish_sumSeq (s : State) (z : TelemetrySummary) : (s.publish z).sumSeq = s.sumSeq + 1#16 := rfl
@[simp] theorem State.publish_err (s : State) (z : TelemetrySummary) : (s.publish z).err = s.err := rfl
@[simp] theorem State.publish_errOpc (s : State) (z : TelemetrySummary) : (s.publish z).errOpc = s.errOpc := rfl
@[simp] theorem State.publish_out (s : State) (z : TelemetrySummary) : (s.publish z).out = s.out ++ [⟨s.sumSeq + 1#16, z⟩] := rfl
@[simp] theorem State.publish_pending (s : State) (z : TelemetrySummary) : (s.publish z).pending = s.pending := rfl
@[simp] theorem State.publish_reads (s : State) (z : TelemetrySummary) : (s.publish z).reads = s.reads := rfl

/-! ### rejectCommand and refuseWrite -/

@[simp] theorem State.rejectCommand_fb (s : State) (d : Byte) : (s.rejectCommand d).fb = s.fb := rfl
@[simp] theorem State.rejectCommand_frameLen (s : State) (d : Byte) : (s.rejectCommand d).frameLen = s.frameLen := rfl
@[simp] theorem State.rejectCommand_crcAcc (s : State) (d : Byte) : (s.rejectCommand d).crcAcc = s.crcAcc := rfl
@[simp] theorem State.rejectCommand_vr (s : State) (d : Byte) : (s.rejectCommand d).vr = s.vr := rfl
@[simp] theorem State.rejectCommand_df (s : State) (d : Byte) : (s.rejectCommand d).df = s.df := rfl
@[simp] theorem State.rejectCommand_sum (s : State) (d : Byte) : (s.rejectCommand d).sum = s.sum := rfl
@[simp] theorem State.rejectCommand_sumSeq (s : State) (d : Byte) : (s.rejectCommand d).sumSeq = s.sumSeq := rfl
@[simp] theorem State.rejectCommand_err (s : State) (d : Byte) : (s.rejectCommand d).err = s.err ||| ErrFlag.illegalCmd.mask := rfl
@[simp] theorem State.rejectCommand_errOpc (s : State) (d : Byte) : (s.rejectCommand d).errOpc = d := rfl
@[simp] theorem State.rejectCommand_out (s : State) (d : Byte) : (s.rejectCommand d).out = s.out := rfl
@[simp] theorem State.rejectCommand_pending (s : State) (d : Byte) : (s.rejectCommand d).pending = s.pending := rfl
@[simp] theorem State.rejectCommand_reads (s : State) (d : Byte) : (s.rejectCommand d).reads = s.reads := rfl
@[simp] theorem State.refuseWrite_fb (s : State) : s.refuseWrite.fb = s.fb := rfl
@[simp] theorem State.refuseWrite_frameLen (s : State) : s.refuseWrite.frameLen = s.frameLen := rfl
@[simp] theorem State.refuseWrite_crcAcc (s : State) : s.refuseWrite.crcAcc = s.crcAcc := rfl
@[simp] theorem State.refuseWrite_vr (s : State) : s.refuseWrite.vr = s.vr := rfl
@[simp] theorem State.refuseWrite_df (s : State) : s.refuseWrite.df = s.df := rfl
@[simp] theorem State.refuseWrite_sum (s : State) : s.refuseWrite.sum = s.sum := rfl
@[simp] theorem State.refuseWrite_sumSeq (s : State) : s.refuseWrite.sumSeq = s.sumSeq := rfl
@[simp] theorem State.refuseWrite_err (s : State) : s.refuseWrite.err = s.err ||| ErrFlag.addrErr.mask := rfl
@[simp] theorem State.refuseWrite_errOpc (s : State) : s.refuseWrite.errOpc = s.errOpc := rfl
@[simp] theorem State.refuseWrite_out (s : State) : s.refuseWrite.out = s.out := rfl
@[simp] theorem State.refuseWrite_pending (s : State) : s.refuseWrite.pending = s.pending := rfl
@[simp] theorem State.refuseWrite_reads (s : State) : s.refuseWrite.reads = s.reads := rfl

end Sys2Proof.Machine
end

