-- ==== Sys2Proof/Laws/Exec.lean ====
section
/-! SUPPORT. Everything a transaction can do, said once: `exec` answers next with the state `effect` names, and `step`
is one of four cases. -/

namespace Sys2Proof.Machine

/-- The state a transaction leaves, over the shared operations. -/
def effect : Instr → State → State
  | .nop, s => s
  | .crcInit, s => s.setCrcAcc 0xFFFF#16
  | .frameClear, s => s.clearFrame
  | .validate, s => s.runValidation
  | .decode, s => s.runDecode
  | .project, s => s.runProject
  | .process, s => if s.frameLen.toNat = 256 then s.runDecode.runProject else s.runDecode
  | .reset, s => s.toReset
  | .cmdRsvd08_0F d, s => s.rejectCommand d
  | .cmdRsvd10_1F d, s => s.rejectCommand d
  | .cmdRsvd20_3F d, s => s.rejectCommand d
  | .cmdRsvd40_7F d, s => s.rejectCommand d
  | .cmdRsvd80_FF d, s => s.rejectCommand d
  | .wrErr d, s => s.clearErr d
  | .wrFrameData d, s => (s.storeFrameByte d).countFrameByte
  | .wrCrcData d, s => s.setCrcAcc (crcStep s.crcAcc d)
  | .wrRo000_0FF _ _, s => s.refuseWrite
  | .wrRo101 _, s => s.refuseWrite
  | .wrRo104_105 _ _, s => s.refuseWrite
  | .wrRo107 _, s => s.refuseWrite
  | .wrRo108_10F _ _, s => s.refuseWrite
  | .wrRo110_11F _ _, s => s.refuseWrite
  | .wrRo120_13F _ _, s => s.refuseWrite
  | .wrRo140_17F _ _, s => s.refuseWrite
  | .wrRo180_1FF _ _, s => s.refuseWrite
  | .rd a _, s => s.respond (readReg s a)

theorem decodeFrame_of_eq (fb : Memory) (len : U16) (h : len.toNat = 256) :
    decodeFrame fb len = some (decodeFields fb (validate fb len).checksumValid) := by
  simp [decodeFrame, h]

theorem decodeFrame_of_ne (fb : Memory) (len : U16) (h : len.toNat ≠ 256) : decodeFrame fb len = none := by
  simp [decodeFrame, h]

/-- PROJECT with a decoded frame publishes its summary. -/
theorem State.runProject_of_some (s : State) (d : DecodedFrame) (h : s.df = some d) :
    s.runProject = s.publish (project d) := by
  simp [State.runProject, h]

/-- PROJECT without one raises NO_FRAME. -/
theorem State.runProject_of_none (s : State) (h : s.df = none) : s.runProject = s.seterr .noFrame := by
  simp [State.runProject, h]

/-- PROJECT publishes a summary or raises NO_FRAME, and does nothing else. -/
theorem State.runProject_cases (s : State) : (∃ z, s.runProject = s.publish z) ∨ s.runProject = s.seterr .noFrame := by
  unfold State.runProject
  split
  · exact .inl ⟨_, rfl⟩
  · exact .inr rfl

/-- FRAME_LEN after one more byte, as a number (R22). -/
theorem nextFrameLen_toNat (n : U16) : (nextFrameLen n).toNat = min (n.toNat + 1) 0xFFFF := by
  unfold nextFrameLen
  split
  · rename_i h
    rw [h]
    rfl
  · rename_i h
    have hlt := n.isLt
    have hne : n.toNat ≠ 0xFFFF := fun e => h (BitVec.eq_of_toNat_eq e)
    rw [BitVec.toNat_add]
    simp
    omega

/-- A FRAME_DATA write with room stores the byte at FRAME_LEN (R142). -/
theorem State.storeFrameByte_of_some (s : State) (d : Byte) (a : Nat) (h : s.appendAddress = some a) :
    s.storeFrameByte d = { s with fb := s.fb.write a d } := by
  simp [State.storeFrameByte, h]

/-- A FRAME_DATA write without room raises FRAME_OVF (R142). -/
theorem State.storeFrameByte_of_none (s : State) (d : Byte) (h : s.appendAddress = none) :
    s.storeFrameByte d = s.seterr .frameOvf := by
  simp [State.storeFrameByte, h]

/-- Every transaction answers next, with its effect. -/
theorem exec_eq_effect (i : Instr) (s : State) : exec i s = .next (effect i s) := by
  cases i
  case process =>
    simp only [exec, execProcess, effect, State.runDecode_df]
    by_cases h : s.frameLen.toNat = 256
    · simp [decodeFrame_of_eq _ _ h, h]
    · simp [decodeFrame_of_ne _ _ h, h]
  all_goals rfl

theorem exec_next {i : Instr} {s t : State} (h : exec i s = .next t) : t = effect i s := by
  rw [exec_eq_effect] at h
  exact (Host.Outcome.next.inj h).symm

@[simp] theorem State.runProject_pending (s : State) : s.runProject.pending = s.pending := by
  unfold State.runProject; split <;> rfl

@[simp] theorem State.runProject_reads (s : State) : s.runProject.reads = s.reads := by
  unfold State.runProject; split <;> rfl

/-- No transaction touches the host's later inputs (R275). -/
theorem effect_pending (i : Instr) (s : State) : (effect i s).pending = s.pending := by
  cases i <;> simp [effect]
  case process => split <;> simp

/-- What a step does, by the host's oldest input. -/
theorem step_cases {s t : State} (h : step s = .next t) :
    (s.pending = [] ∧ t = s) ∨
    (∃ w rest, s.pending = .transaction w :: rest ∧ t = effect (decodeWord w) (s.withInputs rest)) ∨
    (∃ rest, s.pending = .reset :: rest ∧ t = (s.withInputs rest).toReset) := by
  unfold step State.takeInput at h
  rcases hp : s.pending with _ | ⟨x, rest⟩
  · simp only [hp] at h
    exact .inl ⟨rfl, (Host.Outcome.next.inj h).symm⟩
  · simp only [hp] at h
    cases x with
    | transaction w => exact .inr (.inl ⟨w, rest, rfl, exec_next h⟩)
    | reset => exact .inr (.inr ⟨rest, rfl, (Host.Outcome.next.inj h).symm⟩)
    | resetDuring w => cases h

end Sys2Proof.Machine
end

