-- ==== Sys2Proof/Laws/Memory.lean ====
section
/-! SUPPORT. The laws of the frame buffer's byte store: a read after a write, the canonical form, and that two canonical
stores that read alike are equal. -/

namespace Sys2Proof.Machine

@[simp] theorem Memory.read_nil (a : Nat) : Memory.read [] a = 0x00#8 := rfl

theorem Memory.read_cons (c : Host.Cell) (m : Memory) (a : Nat) :
    Memory.read (c :: m) a = if c.1 = a then c.2 else Memory.read m a := rfl

/-- An address below every listed one reads as unlisted. -/
theorem Memory.read_of_lt (m : Memory) (a : Nat) (h : ∀ c ∈ m, a < c.1) : m.read a = 0x00#8 := by
  induction m with
  | nil => rfl
  | cons c m ih =>
    have hc := h c (by simp)
    rw [Memory.read_cons, if_neg (by omega)]
    exact ih fun c' h' => h c' (by simp [h'])

/-- The addresses a write leaves listed. -/
theorem Memory.mem_write (m : Memory) (a : Nat) (v : Byte) (c : Host.Cell) (h : c ∈ m.write a v) :
    c ∈ m ∨ (c = (a, v) ∧ v ≠ unlistedByte) := by
  induction m with
  | nil =>
    simp only [Memory.write] at h
    split at h
    · simp at h
    · exact .inr ⟨by simpa using h, by assumption⟩
  | cons b m ih =>
    simp only [Memory.write] at h
    split at h
    · split at h
      · exact .inl h
      · rcases List.mem_cons.mp h with h | h
        · exact .inr ⟨h, by assumption⟩
        · exact .inl h
    · split at h
      · split at h
        · exact .inl (by simp [h])
        · rcases List.mem_cons.mp h with h | h
          · exact .inr ⟨h, by assumption⟩
          · exact .inl (by simp [h])
      · rcases List.mem_cons.mp h with h | h
        · exact .inl (by simp [h])
        · rcases ih h with h | h
          · exact .inl (by simp [h])
          · exact .inr h

/-- One write's whole effect on reads, in a store whose addresses rise. -/
theorem Memory.read_write (m : Memory) (a : Nat) (v : Byte) (k : Nat)
    (h : List.Pairwise (fun c d => c.1 < d.1) m) :
    (m.write a v).read k = if k = a then v else m.read k := by
  induction m with
  | nil =>
    simp only [Memory.write]
    by_cases hv : v = unlistedByte
    · rw [if_pos hv, hv]; simp [unlistedByte]
    · rw [if_neg hv, Memory.read_cons]; simp only [eq_comm]
  | cons c m ih =>
    have hlt : ∀ d ∈ m, c.1 < d.1 := (List.pairwise_cons.mp h).1
    have ih := ih (List.pairwise_cons.mp h).2
    have below : ∀ j, j ≤ c.1 → Memory.read m j = 0x00#8 := fun j hj =>
      Memory.read_of_lt m j fun d hd => lt_of_le_of_lt hj (hlt d hd)
    have hu : unlistedByte = 0x00#8 := rfl
    obtain ⟨b, w⟩ := c
    simp only [Memory.write]
    rcases Nat.lt_trichotomy a b with hab | hab | hab
    · rw [if_pos hab]
      have hba : b ≠ a := by omega
      by_cases hk : k = a
      · subst hk
        have := below k (Nat.le_of_lt hab)
        by_cases hv : v = unlistedByte
        · simp [hv, hu, Memory.read_cons, hba, this]
        · simp [hv, Memory.read_cons]
      · have hka : a ≠ k := fun e => hk e.symm
        by_cases hv : v = unlistedByte <;> simp [hv, Memory.read_cons, hk, hka]
    · subst hab
      rw [if_neg (lt_irrefl a), if_pos rfl]
      have := below a (le_refl a)
      by_cases hk : k = a
      · subst hk
        by_cases hv : v = unlistedByte
        · simp [hv, hu, this]
        · simp [hv, Memory.read_cons]
      · have hka : a ≠ k := fun e => hk e.symm
        by_cases hv : v = unlistedByte <;> simp [hv, Memory.read_cons, hk, hka]
    · rw [if_neg (by omega), if_neg (by omega), Memory.read_cons, ih, Memory.read_cons]
      have hba : b ≠ a := by omega
      by_cases hk : k = a
      · subst hk; simp [hba]
      · simp [hk]

/-- A write changes no other address, in any store. -/
theorem Memory.read_write_of_ne (m : Memory) (a : Nat) (v : Byte) (k : Nat) (h : k ≠ a) :
    (m.write a v).read k = m.read k := by
  have ha : a ≠ k := fun e => h e.symm
  induction m with
  | nil =>
    simp only [Memory.write]
    split
    · rfl
    · simp [Memory.read_cons, ha]
  | cons c m ih =>
    simp only [Memory.write]
    split
    · split
      · rfl
      · simp [Memory.read_cons, ha]
    · split
      · rename_i hac
        split <;> simp [Memory.read_cons, ha, ← hac]
      · simp [Memory.read_cons, ih]

/-- Addresses stay strictly rising under a write. -/
theorem Memory.pairwise_write (m : Memory) (a : Nat) (v : Byte)
    (h : List.Pairwise (fun c d => c.1 < d.1) m) :
    List.Pairwise (fun c d => c.1 < d.1) (m.write a v) := by
  induction m with
  | nil => simp only [Memory.write]; split <;> simp
  | cons c m ih =>
    have hp := List.pairwise_cons.mp h
    simp only [Memory.write]
    split
    · split
      · exact h
      · rename_i hac _
        refine List.pairwise_cons.mpr ⟨fun d hd => ?_, h⟩
        rcases List.mem_cons.mp hd with rfl | hd
        · exact hac
        · exact lt_trans hac (hp.1 d hd)
    · split
      · rename_i hac
        split
        · exact hp.2
        · exact List.pairwise_cons.mpr ⟨fun d hd => by rw [hac]; exact hp.1 d hd, hp.2⟩
      · refine List.pairwise_cons.mpr ⟨fun d hd => ?_, ih hp.2⟩
        rcases Memory.mem_write m a v d hd with hd | ⟨rfl, _⟩
        · exact hp.1 d hd
        · show c.1 < a
          omega

/-- Every write inside the buffer keeps the canonical form. -/
theorem Memory.wf_write (m : Memory) (a : Nat) (v : Byte) (h : m.wf) (ha : a < 256) : (m.write a v).wf := by
  refine ⟨Memory.pairwise_write m a v h.1, fun c hc => ?_⟩
  rcases Memory.mem_write m a v c hc with hc | ⟨rfl, hv⟩
  · exact h.2 c hc
  · exact ⟨ha, hv⟩

/-- The empty store, the reset contents, is canonical. -/
theorem Memory.wf_nil : Memory.wf [] := ⟨List.Pairwise.nil, fun c hc => by simp at hc⟩

/-- The rest of a canonical store is canonical. -/
theorem Memory.wf_tail {c : Host.Cell} {m : Memory} (h : Memory.wf (c :: m)) : Memory.wf m :=
  ⟨(List.pairwise_cons.mp h.1).2, fun d hd => h.2 d (by simp [hd])⟩

/-- Equal memories are equal data: two canonical stores that read alike everywhere are the same list. -/
theorem Memory.ext_of_wf : ∀ (m n : Memory), m.wf → n.wf → (∀ k, m.read k = n.read k) → m = n
  | [], [], _, _, _ => rfl
  | [], d :: n, _, hn, h => by
    have := h d.1
    simp only [Memory.read_nil, Memory.read_cons, if_true] at this
    exact absurd this.symm (hn.2 d (by simp)).2
  | c :: m, [], hm, _, h => by
    have := h c.1
    simp only [Memory.read_nil, Memory.read_cons, if_true] at this
    exact absurd this (hm.2 c (by simp)).2
  | c :: m, d :: n, hm, hn, h => by
    have hcm := (List.pairwise_cons.mp hm.1).1
    have hdn := (List.pairwise_cons.mp hn.1).1
    have hc0 := (hm.2 c (by simp)).2
    have hd0 := (hn.2 d (by simp)).2
    have h1 : c.1 = d.1 := by
      rcases Nat.lt_trichotomy c.1 d.1 with hlt | heq | hgt
      · have := h c.1
        rw [Memory.read_cons, if_pos rfl, Memory.read_of_lt (d :: n) c.1] at this
        · exact absurd this hc0
        · intro e he
          rcases List.mem_cons.mp he with rfl | he
          · exact hlt
          · exact lt_trans hlt (hdn e he)
      · exact heq
      · have := h d.1
        rw [Memory.read_cons d, if_pos rfl, Memory.read_of_lt (c :: m) d.1] at this
        · exact absurd this.symm hd0
        · intro e he
          rcases List.mem_cons.mp he with rfl | he
          · exact hgt
          · exact lt_trans hgt (hcm e he)
    have h2 : c.2 = d.2 := by
      have := h c.1
      rwa [Memory.read_cons, Memory.read_cons, if_pos rfl, if_pos h1.symm] at this
    have h3 : m = n := by
      refine Memory.ext_of_wf m n (Memory.wf_tail hm) (Memory.wf_tail hn) fun k => ?_
      by_cases hk : k = c.1
      · rw [hk, Memory.read_of_lt m c.1 hcm, h1, Memory.read_of_lt n d.1 hdn]
      · have := h k
        rwa [Memory.read_cons, Memory.read_cons, if_neg (Ne.symm hk), if_neg (fun e => hk (by omega))] at this
    rw [Prod.ext h1 h2, h3]

end Sys2Proof.Machine
end

