-- ==== Sys2Proof/Laws/Operands.lean ====
section
/-! SUPPORT. The byte assembly of R9 and R52 as concatenations, elements and bits. -/

namespace Sys2Proof.Machine

/-- LE16: the second byte is the high one. -/
theorem le16_eq_append (m : Memory) (a : Nat) : le16 m a = m.read (a + 1) ++ m.read a := by
  apply BitVec.eq_of_getLsbD_eq
  intro i hi
  simp only [le16, BitVec.getLsbD_append, BitVec.getLsbD_or, BitVec.getLsbD_setWidth, BitVec.getLsbD_shiftLeft, hi,
    decide_true, Bool.true_and]
  by_cases h : i < 8
  · simp [h]
  · simp [h, BitVec.getLsbD_of_ge _ i (by omega : 8 ≤ i), (by omega : i - 8 < 16)]

/-- The bits of four concatenated bytes. -/
theorem append4_getLsbD (w x y z : Byte) (i : Nat) :
    (w ++ x ++ y ++ z : U32).getLsbD i =
      if i < 8 then z.getLsbD i else if i < 16 then y.getLsbD (i - 8)
      else if i < 24 then x.getLsbD (i - 16) else w.getLsbD (i - 24) := by
  show (((w ++ x : BitVec (8 + 8)) ++ y : BitVec (8 + 8 + 8)) ++ z : BitVec (8 + 8 + 8 + 8)).getLsbD i = _
  rw [BitVec.getLsbD_append, BitVec.getLsbD_append, BitVec.getLsbD_append]
  simp only [Nat.sub_sub, (by omega : i - 8 < 8 ↔ i < 16), (by omega : i - (8 + 8) < 8 ↔ i < 24)]

/-- LE32: the fourth byte is the highest. -/
theorem le32_eq_append (m : Memory) (a : Nat) :
    le32 m a = m.read (a + 3) ++ m.read (a + 2) ++ m.read (a + 1) ++ m.read a := by
  apply BitVec.eq_of_getLsbD_eq
  intro i hi
  rw [append4_getLsbD]
  simp only [le32, BitVec.getLsbD_or, BitVec.getLsbD_setWidth, BitVec.getLsbD_shiftLeft, hi, decide_true, Bool.true_and]
  have high : ∀ (b : Byte) (j : Nat), 8 ≤ j → b.getLsbD j = false := fun b j h => BitVec.getLsbD_of_ge b j h
  by_cases h1 : i < 8
  · simp [h1, (by omega : i < 16), (by omega : i < 24)]
  · by_cases h2 : i < 16
    · have : i - 8 < 8 := by omega
      simp [h1, h2, high _ i (by omega), this, (by omega : i - 8 < 32), (by omega : i < 24)]
    · by_cases h3 : i < 24
      · simp only [h1, h2, h3, high _ i (by omega), high _ (i - 8) (by omega)]
        simp [(by omega : i - 16 < 32)]
      · simp only [h1, h2, h3, high _ i (by omega), high _ (i - 8) (by omega), high _ (i - 16) (by omega)]
        simp [(by omega : i - 24 < 32)]

/-- BE16: the first byte is the high one. -/
theorem be16OfBytes_eq_append (x y : Byte) : be16OfBytes x y = x ++ y := by
  apply BitVec.eq_of_getLsbD_eq
  intro i hi
  simp only [be16OfBytes, BitVec.getLsbD_append, BitVec.getLsbD_or, BitVec.getLsbD_setWidth, BitVec.getLsbD_shiftLeft,
    hi, decide_true, Bool.true_and]
  by_cases h : i < 8
  · simp [h]
  · simp [h, BitVec.getLsbD_of_ge y i (by omega : 8 ≤ i), (by omega : i - 8 < 16)]

@[simp] theorem slice_getElem (m : Memory) (a n k : Nat) (h : k < n) : (slice m a n)[k] = m.read (a + k) := by
  simp [slice]

@[simp] theorem sliceList_length (m : Memory) (a n : Nat) : (sliceList m a n).length = n := by
  simp [sliceList]

@[simp] theorem sliceList_getElem (m : Memory) (a n k : Nat) (h : k < (sliceList m a n).length) :
    (sliceList m a n)[k] = m.read (a + k) := by
  simp [sliceList]

/-- Bit `i` of byte `k` is bit `8k + i`. -/
theorem byteOf_getLsbD {w : Nat} (v : BitVec w) (k i : Nat) :
    (byteOf v k).getLsbD i = (decide (i < 8) && v.getLsbD (8 * k + i)) := by
  simp [byteOf]

/-- A 16-bit value is its two bytes (R53). -/
theorem byteOf_append16 (v : U16) : byteOf v 1 ++ byteOf v 0 = v := by
  apply BitVec.eq_of_getLsbD_eq
  intro i hi
  rw [BitVec.getLsbD_append]
  simp only [byteOf_getLsbD]
  by_cases h : i < 8
  · simp [h]
  · simp [h, (by omega : i - 8 < 8), (by omega : 8 + (i - 8) = i)]

/-- A 32-bit value is its four bytes (R53). -/
theorem byteOf_append32 (v : U32) : byteOf v 3 ++ byteOf v 2 ++ byteOf v 1 ++ byteOf v 0 = v := by
  apply BitVec.eq_of_getLsbD_eq
  intro i hi
  rw [append4_getLsbD]
  simp only [byteOf_getLsbD]
  by_cases h : i < 8
  · simp [h]
  · by_cases h2 : i < 16
    · simp [h, h2, (by omega : i - 8 < 8), (by omega : 8 + (i - 8) = i)]
    · by_cases h3 : i < 24
      · simp [h, h2, h3, (by omega : i - 16 < 8), (by omega : 16 + (i - 16) = i)]
      · simp [h, h2, h3, (by omega : i - 24 < 8), (by omega : 24 + (i - 24) = i)]

end Sys2Proof.Machine
end

