-- ==== Sys2Proof/Laws/PerInstr.lean ====
section
/-! SUPPORT. One statement per constructor of `Instr`: the encoding of a well-formed instruction lies in its row of the opcode table. -/

namespace Sys2Proof.Laws.WordInTableRow

/-- The row of the instruction's mnemonic admits its word. -/
def Statement (i : Instr) : Prop :=
  i.wellFormed = true → ∃ r ∈ opcodeTable, r.mnemonic = i.mnemonic ∧ r.admits (encodeWord i) = true

/-- A packed word lies in a row when its masked fields are the row's. -/
theorem admits_packWord (n : String) (w pw mw : Bool) (a pa ma : Addr) (d pd md : Byte)
    (hw : (w && mw) = pw) (ha : a &&& ma = pa) (hd : d &&& md = pd) :
    TableRow.admits ⟨n, packWord pw pa pd, packWord mw ma md⟩ (packWord w a d) = true := by
  simp [TableRow.admits, packWord_and, hw, ha, hd]

/-- Row `k` of the table, its match and mask in packed form, admits the word. -/
theorem of_row (i : Instr) (k : Nat) (pw mw : Bool) (pa ma : Addr) (pd md : Byte) (w : Bool) (a : Addr) (d : Byte)
    (hr : opcodeTable[k]? = some ⟨i.mnemonic, packWord pw pa pd, packWord mw ma md⟩)
    (he : encodeWord i = packWord w a d) (hw : (w && mw) = pw) (ha : a &&& ma = pa) (hd : d &&& md = pd) :
    Statement i := fun _ =>
  ⟨_, List.mem_of_getElem? hr, rfl, he ▸ admits_packWord _ w pw mw a pa ma d pd md hw ha hd⟩

theorem nop : Statement .nop :=
  of_row .nop 0 true true 0x100#9 0x1FF#9 0x00#8 0xFF#8 _ _ _ rfl rfl rfl rfl rfl
theorem crcInit : Statement .crcInit :=
  of_row .crcInit 1 true true 0x100#9 0x1FF#9 0x01#8 0xFF#8 _ _ _ rfl rfl rfl rfl rfl
theorem frameClear : Statement .frameClear :=
  of_row .frameClear 2 true true 0x100#9 0x1FF#9 0x02#8 0xFF#8 _ _ _ rfl rfl rfl rfl rfl
theorem validate : Statement .validate :=
  of_row .validate 3 true true 0x100#9 0x1FF#9 0x03#8 0xFF#8 _ _ _ rfl rfl rfl rfl rfl
theorem decode : Statement .decode :=
  of_row .decode 4 true true 0x100#9 0x1FF#9 0x04#8 0xFF#8 _ _ _ rfl rfl rfl rfl rfl
theorem project : Statement .project :=
  of_row .project 5 true true 0x100#9 0x1FF#9 0x05#8 0xFF#8 _ _ _ rfl rfl rfl rfl rfl
theorem process : Statement .process :=
  of_row .process 6 true true 0x100#9 0x1FF#9 0x06#8 0xFF#8 _ _ _ rfl rfl rfl rfl rfl
theorem reset : Statement .reset :=
  of_row .reset 7 true true 0x100#9 0x1FF#9 0x07#8 0xFF#8 _ _ _ rfl rfl rfl rfl rfl

/-- The reserved rows: D under each row's mask (R84). -/
theorem opcode_mask : ∀ d : Byte,
    (inRange 0x08 0x0F d = true → d &&& 0xF8#8 = 0x08#8) ∧ (inRange 0x10 0x1F d = true → d &&& 0xF0#8 = 0x10#8) ∧
    (inRange 0x20 0x3F d = true → d &&& 0xE0#8 = 0x20#8) ∧ (inRange 0x40 0x7F d = true → d &&& 0xC0#8 = 0x40#8) ∧
    (inRange 0x80 0xFF d = true → d &&& 0x80#8 = 0x80#8) := by decide +kernel

theorem cmdRsvd08_0F (d : Byte) : Statement (.cmdRsvd08_0F d) := fun h =>
  of_row (.cmdRsvd08_0F d) 8 true true 0x100#9 0x1FF#9 0x08#8 0xF8#8 _ _ _ rfl rfl rfl rfl ((opcode_mask d).1 h) h
theorem cmdRsvd10_1F (d : Byte) : Statement (.cmdRsvd10_1F d) := fun h =>
  of_row (.cmdRsvd10_1F d) 9 true true 0x100#9 0x1FF#9 0x10#8 0xF0#8 _ _ _ rfl rfl rfl rfl ((opcode_mask d).2.1 h) h
theorem cmdRsvd20_3F (d : Byte) : Statement (.cmdRsvd20_3F d) := fun h =>
  of_row (.cmdRsvd20_3F d) 10 true true 0x100#9 0x1FF#9 0x20#8 0xE0#8 _ _ _ rfl rfl rfl rfl ((opcode_mask d).2.2.1 h) h
theorem cmdRsvd40_7F (d : Byte) : Statement (.cmdRsvd40_7F d) := fun h =>
  of_row (.cmdRsvd40_7F d) 11 true true 0x100#9 0x1FF#9 0x40#8 0xC0#8 _ _ _ rfl rfl rfl rfl ((opcode_mask d).2.2.2.1 h) h
theorem cmdRsvd80_FF (d : Byte) : Statement (.cmdRsvd80_FF d) := fun h =>
  of_row (.cmdRsvd80_FF d) 12 true true 0x100#9 0x1FF#9 0x80#8 0x80#8 _ _ _ rfl rfl rfl rfl ((opcode_mask d).2.2.2.2 h) h

theorem wrErr (d : Byte) : Statement (.wrErr d) :=
  of_row (.wrErr d) 13 true true 0x102#9 0x1FF#9 0x00#8 0x00#8 _ _ d rfl rfl rfl rfl BitVec.and_zero
theorem wrFrameData (d : Byte) : Statement (.wrFrameData d) :=
  of_row (.wrFrameData d) 14 true true 0x103#9 0x1FF#9 0x00#8 0x00#8 _ _ d rfl rfl rfl rfl BitVec.and_zero
theorem wrCrcData (d : Byte) : Statement (.wrCrcData d) :=
  of_row (.wrCrcData d) 15 true true 0x106#9 0x1FF#9 0x00#8 0x00#8 _ _ d rfl rfl rfl rfl BitVec.and_zero

/-- The read-only rows: A under each row's mask (R85). -/
theorem address_mask : ∀ a : Addr,
    (inRange 0x000 0x0FF a = true → a &&& 0x100#9 = 0x000#9) ∧ (inRange 0x104 0x105 a = true → a &&& 0x1FE#9 = 0x104#9) ∧
    (inRange 0x108 0x10F a = true → a &&& 0x1F8#9 = 0x108#9) ∧ (inRange 0x110 0x11F a = true → a &&& 0x1F0#9 = 0x110#9) ∧
    (inRange 0x120 0x13F a = true → a &&& 0x1E0#9 = 0x120#9) ∧ (inRange 0x140 0x17F a = true → a &&& 0x1C0#9 = 0x140#9) ∧
    (inRange 0x180 0x1FF a = true → a &&& 0x180#9 = 0x180#9) := by decide +kernel

theorem wrRo000_0FF (a : Addr) (d : Byte) : Statement (.wrRo000_0FF a d) := fun h =>
  of_row (.wrRo000_0FF a d) 16 true true 0x000#9 0x100#9 0x00#8 0x00#8 _ a d rfl rfl rfl ((address_mask a).1 h) BitVec.and_zero h
theorem wrRo101 (d : Byte) : Statement (.wrRo101 d) :=
  of_row (.wrRo101 d) 17 true true 0x101#9 0x1FF#9 0x00#8 0x00#8 _ _ d rfl rfl rfl rfl BitVec.and_zero
theorem wrRo104_105 (a : Addr) (d : Byte) : Statement (.wrRo104_105 a d) := fun h =>
  of_row (.wrRo104_105 a d) 18 true true 0x104#9 0x1FE#9 0x00#8 0x00#8 _ a d rfl rfl rfl ((address_mask a).2.1 h) BitVec.and_zero h
theorem wrRo107 (d : Byte) : Statement (.wrRo107 d) :=
  of_row (.wrRo107 d) 19 true true 0x107#9 0x1FF#9 0x00#8 0x00#8 _ _ d rfl rfl rfl rfl BitVec.and_zero
theorem wrRo108_10F (a : Addr) (d : Byte) : Statement (.wrRo108_10F a d) := fun h =>
  of_row (.wrRo108_10F a d) 20 true true 0x108#9 0x1F8#9 0x00#8 0x00#8 _ a d rfl rfl rfl ((address_mask a).2.2.1 h) BitVec.and_zero h
theorem wrRo110_11F (a : Addr) (d : Byte) : Statement (.wrRo110_11F a d) := fun h =>
  of_row (.wrRo110_11F a d) 21 true true 0x110#9 0x1F0#9 0x00#8 0x00#8 _ a d rfl rfl rfl ((address_mask a).2.2.2.1 h) BitVec.and_zero h
theorem wrRo120_13F (a : Addr) (d : Byte) : Statement (.wrRo120_13F a d) := fun h =>
  of_row (.wrRo120_13F a d) 22 true true 0x120#9 0x1E0#9 0x00#8 0x00#8 _ a d rfl rfl rfl ((address_mask a).2.2.2.2.1 h) BitVec.and_zero h
theorem wrRo140_17F (a : Addr) (d : Byte) : Statement (.wrRo140_17F a d) := fun h =>
  of_row (.wrRo140_17F a d) 23 true true 0x140#9 0x1C0#9 0x00#8 0x00#8 _ a d rfl rfl rfl ((address_mask a).2.2.2.2.2.1 h) BitVec.and_zero h
theorem wrRo180_1FF (a : Addr) (d : Byte) : Statement (.wrRo180_1FF a d) := fun h =>
  of_row (.wrRo180_1FF a d) 24 true true 0x180#9 0x180#9 0x00#8 0x00#8 _ a d rfl rfl rfl ((address_mask a).2.2.2.2.2.2 h) BitVec.and_zero h
theorem rd (a : Addr) (d : Byte) : Statement (.rd a d) :=
  of_row (.rd a d) 25 false true 0x000#9 0x000#9 0x00#8 0x00#8 _ a d rfl rfl rfl BitVec.and_zero BitVec.and_zero

end Sys2Proof.Laws.WordInTableRow
end

