-- ==== Sys2Proof/Laws/Registers.lean ====
section
/-! SUPPORT. The bits of STATUS and ERR, and the three windows of the register map. -/

namespace Sys2Proof.Machine

/-- No condition's mask has bit 6 or above (R36). -/
theorem ErrFlag.mask_getLsbD_of_ge (f : ErrFlag) (b : Nat) (h : 6 ≤ b) : f.mask.getLsbD b = false := by
  by_cases h8 : b < 8
  · rcases (by omega : b = 6 ∨ b = 7) with rfl | rfl <;> cases f <;> rfl
  · exact BitVec.getLsbD_of_ge _ _ (by omega)

theorem flagBit_getLsbD (i : Nat) (b : Bool) (j : Nat) (hj : j < 8) : (flagBit i b).getLsbD j = (b && decide (j = i)) := by
  unfold flagBit
  cases b
  · simp
  · by_cases h : j = i
    · subst h; simp [hj]
    · simp [hj, h]; omega

/-- The STATUS bits, each at its place (R35). -/
theorem statusByte_getLsbD (s : State) (j : Nat) (hj : j < 8) :
    (statusByte s).getLsbD j =
      ((s.lenOk && decide (j = 0)) || (s.crcValid && decide (j = 1)) || (s.vr.isSome && decide (j = 2)) ||
        (s.df.isSome && decide (j = 3)) || (s.sum.isSome && decide (j = 4)) ||
        (decide (s.frameLen.toNat = 256) && decide (j = 5)) || (decide (256 < s.frameLen.toNat) && decide (j = 6)) ||
        (decide (s.err ≠ 0#8) && decide (j = 7))) := by
  simp only [statusByte, BitVec.getLsbD_or, flagBit_getLsbD _ _ _ hj]

/-- An address of the map, as the number `readReg` looks at (R50). -/
theorem addr_toNat (a : Nat) (h : a ≤ 0x1FF) : (BitVec.ofNat 9 a).toNat = a := by
  rw [BitVec.toNat_ofNat]
  exact Nat.mod_eq_of_lt (by omega)

/-- The frame window shows FB (R51). -/
theorem readReg_frame (s : State) (a : Nat) (h : a ≤ 0x0FF) : readReg s (BitVec.ofNat 9 a) = s.fb.read a := by
  simp only [readReg, addr_toNat a (by omega), h, if_true]

/-- Above SUM_SEQ only the two windows of results are mapped (R51). -/
theorem readReg_results (s : State) (a : Nat) (h1 : 0x112 ≤ a) (h2 : a ≤ 0x1FF) :
    readReg s (BitVec.ofNat 9 a) =
      if 0x120 ≤ a ∧ a ≤ 0x18F then s.decByte a else if 0x190 ≤ a ∧ a ≤ 0x1BD then s.sumByte a else 0x00#8 := by
  simp (disch := omega) only [readReg, addr_toNat a h2, if_neg]

/-- The DEC_* window (R51). -/
theorem readReg_dec (s : State) (a : Nat) (h1 : 0x120 ≤ a) (h2 : a ≤ 0x18F) :
    readReg s (BitVec.ofNat 9 a) = s.decByte a := by
  simp only [readReg_results s a (by omega) (by omega), h1, h2, and_self, if_true]

/-- The SUM_* window (R51). -/
theorem readReg_sum (s : State) (a : Nat) (h1 : 0x190 ≤ a) (h2 : a ≤ 0x1BD) :
    readReg s (BitVec.ofNat 9 a) = s.sumByte a := by
  have hd : ¬ (0x120 ≤ a ∧ a ≤ 0x18F) := by omega
  simp only [readReg_results s a (by omega) (by omega), hd, h1, h2, and_self, if_true, if_false]

end Sys2Proof.Machine
end

