-- ==== Sys2Proof/Laws/Run.lean ====
section
/-! SUPPORT. Runs of host inputs: one step per input, so that a claim about a sequence is an induction over it. -/

namespace Sys2Proof.Machine

/-- A transaction does not look at the host's later inputs (R57, R275). -/
theorem effect_withInputs (i : Instr) (s : State) (xs : List HostInput) :
    effect i (s.withInputs xs) = (effect i s).withInputs xs := by
  have hv : (s.withInputs xs).runValidation = s.runValidation.withInputs xs := by
    unfold State.runValidation State.flagVerdict
    dsimp only
    repeat' split
    all_goals first | rfl | simp_all
  have hd : (s.withInputs xs).runDecode = s.runDecode.withInputs xs := by
    show (s.withInputs xs).runValidation.setDf _ = _
    rw [hv]; rfl
  have hp : ∀ u : State, (u.withInputs xs).runProject = u.runProject.withInputs xs := by
    intro u
    unfold State.runProject
    rw [State.withInputs_df]
    split <;> rfl
  cases i with
  | validate => exact hv
  | decode => exact hd
  | project => exact hp s
  | process =>
    simp only [effect, State.withInputs_frameLen, hd, hp]
    split <;> rfl
  | wrFrameData d =>
    simp only [effect]
    unfold State.storeFrameByte
    rw [show (s.withInputs xs).appendAddress = s.appendAddress from rfl]
    split <;> rfl
  | _ => rfl

/-- A run with nothing left to apply. -/
@[simp] theorem runInputs_nil (s : State) : runInputs [] s = .next (s.withInputs []) := rfl

/-- A run applies its first transaction, then the rest. -/
theorem runInputs_transaction (w : TxWord) (xs : List HostInput) (s : State) :
    runInputs (.transaction w :: xs) s = runInputs xs (effect (decodeWord w) s) := by
  have h : step (s.withInputs (.transaction w :: xs)) = .next ((effect (decodeWord w) s).withInputs xs) := by
    show exec (decodeWord w) (s.withInputs xs) = _
    rw [exec_eq_effect, effect_withInputs]
  unfold runInputs
  simp only [List.length_cons, Host.Core.run]
  rw [show core.step (s.withInputs (.transaction w :: xs)) = _ from h]

/-- A run applies a reset, then the rest. -/
theorem runInputs_reset (xs : List HostInput) (s : State) : runInputs (.reset :: xs) s = runInputs xs s.toReset := rfl

/-- A run stops at a reset in the middle of a transaction. -/
theorem runInputs_resetDuring (w : TxWord) (xs : List HostInput) (s : State) :
    runInputs (.resetDuring w :: xs) s = .refused .resetDuringTransaction := rfl

/-- A run of two parts is the second part from where the first ended. -/
theorem runInputs_append (xs ys : List HostInput) (s t : State) (h : runInputs xs s = .next t) :
    runInputs (xs ++ ys) s = runInputs ys t := by
  induction xs generalizing s with
  | nil =>
    have := Host.Outcome.next.inj h
    subst this
    rfl
  | cons x xs ih =>
    cases x with
    | transaction w =>
      rw [List.cons_append, runInputs_transaction]
      exact ih _ (by rwa [runInputs_transaction] at h)
    | reset =>
      rw [List.cons_append, runInputs_reset]
      exact ih _ (by rwa [runInputs_reset] at h)
    | resetDuring w => cases h

end Sys2Proof.Machine
end

