-- ==== Sys2Proof/Tests/Slice0.lean ====
section
/-! SUPPORT. The model's own tests: each expected value is from the rule or the vector of spec/95_test_vectors.md that its
comment names.  The witness theorems at the end meet the hypotheses of the statements, each clause at the ends of its range. -/

namespace Sys2Proof.Tests

open Sys2Proof.Machine

/-! ### Helpers -/

/-- What a transaction leaves, seen through `f`. -/
def after {α : Type} (i : Instr) (s : State) (f : State → α) : Option α :=
  match exec i s with
  | .next t => some (f t)
  | .fault _ => none
  | .refused _ => none

/-- The bytes stored from address `a` on. -/
def bytesAt : Nat → List Byte → Memory → Memory
  | _, [], m => m
  | a, b :: bs, m => bytesAt (a + 1) bs (m.write a b)

/-- The frame `Z`: zeros, then its checksum 0x4E55 (95_test_vectors.md). -/
def frameZ : Memory := [(254, 0x4E#8), (255, 0x55#8)]

/-- A complete frame with the given contents, nothing validated yet. -/
def fed (m : Memory) : State := { State.reset with fb := m, frameLen := 256#16 }

/-- Some bytes of the frame `E` (95_test_vectors.md 1.8): byte 23, module 1 and the charging record. -/
def partOfE : Memory :=
  bytesAt 136 [0x55, 0x62, 0xA7, 0x3C, 0x4C, 0x1D, 0, 0, 0xE8, 0x03, 0, 0, 0x2D, 0x2E, 0x11, 0x22,
      0xA0, 0x0F, 0xF4, 0x01, 0x1E, 0x02, 0x33, 0x44, 0x34, 0x12, 0x01, 0, 0x40, 0xE2, 0x01, 0]
    (bytesAt 40 [0x11, 0x21, 0xFB, 0x00, 0x69, 0x00, 0xA1, 0x0F] [(23, 0xA5#8)])

/-- A frame already decoded, with a mismatched checksum. -/
def decodedE : State :=
  { fed partOfE with vr := some ⟨true, false, 1#16, 0#16⟩, df := some (decodeFields partOfE false) }

/-- The registers `a`, `a+1`, … of a state. -/
def regs (s : State) (a n : Nat) : List Byte := (List.range n).map fun k => readReg s (BitVec.ofNat 9 (a + k))

/-! ### WellFormed refuses a term outside its row -/

theorem test_wf_refuses_opcode_below_row : Instr.wellFormed (.cmdRsvd08_0F 0x07#8) = false := by decide
theorem test_wf_refuses_opcode_outside_rows :
    (Instr.cmdRsvd10_1F 0x20#8).wellFormed = false ∧ (Instr.cmdRsvd20_3F 0x1F#8).wellFormed = false ∧
    (Instr.cmdRsvd40_7F 0x80#8).wellFormed = false ∧ (Instr.cmdRsvd80_FF 0x7F#8).wellFormed = false := by decide
theorem test_wf_refuses_address_outside_rows :
    (Instr.wrRo000_0FF 0x100#9 0#8).wellFormed = false ∧ (Instr.wrRo104_105 0x106#9 0#8).wellFormed = false ∧
    (Instr.wrRo108_10F 0x107#9 0#8).wellFormed = false ∧ (Instr.wrRo110_11F 0x120#9 0#8).wellFormed = false ∧
    (Instr.wrRo120_13F 0x11F#9 0#8).wellFormed = false ∧ (Instr.wrRo140_17F 0x180#9 0#8).wellFormed = false ∧
    (Instr.wrRo180_1FF 0x17F#9 0#8).wellFormed = false := by decide

/-! ### Decoding: words written out as W, A, D from R80, R83 and R85 -/

theorem test_decode_commands :
    decodeWord 0b1_100000000_00000000#18 = .nop ∧ decodeWord 0b1_100000000_00000001#18 = .crcInit ∧
    decodeWord 0b1_100000000_00000010#18 = .frameClear ∧ decodeWord 0b1_100000000_00000011#18 = .validate ∧
    decodeWord 0b1_100000000_00000100#18 = .decode ∧ decodeWord 0b1_100000000_00000101#18 = .project ∧
    decodeWord 0b1_100000000_00000110#18 = .process ∧ decodeWord 0b1_100000000_00000111#18 = .reset := by decide

theorem test_decode_reserved :
    decodeWord 0b1_100000000_00001000#18 = .cmdRsvd08_0F 0x08#8 ∧ decodeWord 0b1_100000000_00011111#18 = .cmdRsvd10_1F 0x1F#8 ∧
    decodeWord 0b1_100000000_00100000#18 = .cmdRsvd20_3F 0x20#8 ∧ decodeWord 0b1_100000000_01111111#18 = .cmdRsvd40_7F 0x7F#8 ∧
    decodeWord 0b1_100000000_11000011#18 = .cmdRsvd80_FF 0xC3#8 := by decide

theorem test_decode_ports :
    decodeWord 0b1_100000010_11000101#18 = .wrErr 0xC5#8 ∧ decodeWord 0b1_100000011_10101011#18 = .wrFrameData 0xAB#8 ∧
    decodeWord 0b1_100000110_00110001#18 = .wrCrcData 0x31#8 := by decide

theorem test_decode_read_only :
    decodeWord 0b1_000010000_01010101#18 = .wrRo000_0FF 0x010#9 0x55#8 ∧
    decodeWord 0b1_100000001_01010101#18 = .wrRo101 0x55#8 ∧
    decodeWord 0b1_100000101_00000001#18 = .wrRo104_105 0x105#9 0x01#8 ∧
    decodeWord 0b1_100000111_00000000#18 = .wrRo107 0x00#8 ∧
    decodeWord 0b1_100001111_00000010#18 = .wrRo108_10F 0x10F#9 0x02#8 ∧
    decodeWord 0b1_100010000_00000011#18 = .wrRo110_11F 0x110#9 0x03#8 ∧
    decodeWord 0b1_100100000_00000100#18 = .wrRo120_13F 0x120#9 0x04#8 ∧
    decodeWord 0b1_101111111_00000101#18 = .wrRo140_17F 0x17F#9 0x05#8 ∧
    decodeWord 0b1_110111110_00000000#18 = .wrRo180_1FF 0x1BE#9 0x00#8 := by decide

/-- R88: `RD 0x108` is 0x10800; HA10: the word 0x1015A is a read of 0x101. -/
theorem test_decode_read :
    decodeWord 0b0_100001000_00000000#18 = .rd 0x108#9 0x00#8 ∧ decodeTableWord 24 0x1015A = some (.rd 0x101#9 0x5A#8) := by
  decide

/-- R87: a pattern wider than 18 bits is no transaction. -/
theorem test_decode_refuses_wide_pattern :
    decodeTableWord 24 0x40000 = none ∧ decodeBits 0x40000 = .error .widerThanTransactionWord := ⟨by decide, rfl⟩

/-- R88: `WR 0x100, 0x01` is 0x30001 and `RD 0x108` is 0x10800. -/
theorem test_assembler_words :
    (AsmLine.wr 0x100#9 0x01#8).word = 0x30001#18 ∧ (AsmLine.rd 0x108#9).word = 0x10800#18 := by decide

/-! ### Checksum Engine (95_test_vectors.md 2.1) -/

theorem test_crc_step_vectors :
    crcStep 0xFFFF#16 0x00#8 = 0x40BF#16 ∧ crcStep 0x0000#16 0x00#8 = 0x0000#16 ∧ crcStep 0x0000#16 0x01#8 = 0xC0C1#16 ∧
    crcStep 0x0001#16 0x00#8 = 0xC0C1#16 ∧ crcStep 0xFFFF#16 0xFF#8 = 0x00FF#16 ∧ crcStep 0x8000#16 0x00#8 = 0x0080#16 ∧
    crcStep 0x1234#16 0x56#8 = 0xE993#16 ∧ crcStep 0xA5A5#16 0xA5#8 = 0x00A5#16 := by decide

/-- CK6 and CK11. -/
theorem test_checksum_vectors :
    checksum [0x31, 0x32, 0x33, 0x34, 0x35, 0x36, 0x37, 0x38, 0x39] = 0x4B37#16 ∧
    checksum [0x01, 0x02, 0x03, 0x04] = 0x2BA1#16 := by decide +kernel

/-- CE2. -/
theorem test_crcInit : after .crcInit { State.reset with crcAcc := 0x4B37#16 } (·.crcAcc) = some 0xFFFF#16 := by decide

/-- R164's example. -/
theorem test_wrCrcData : after (.wrCrcData 0x00#8) State.reset (·.crcAcc) = some 0x40BF#16 := by decide

/-! ### Frame Validator (95_test_vectors.md 1.5, 2.2) -/

/-- CK7, VA1: the frame `Z` passes with 0x4E55 on both sides. -/
theorem validate_frameZ : validate frameZ 256#16 = ⟨true, true, 0x4E55#16, 0x4E55#16⟩ := by
  set_option maxRecDepth 20000 in decide +kernel

/-- VA1. -/
theorem test_validate_Z : after .validate (fed frameZ) (fun t => (statusByte t, t.err)) = some (0x27#8, 0x00#8) := by
  simp only [after, exec, execValidate, State.runValidation, fed, validate_frameZ]
  decide

/-- VA4: 257 bytes. -/
theorem test_validate_too_long :
    after .validate { State.reset with frameLen := 257#16, err := 0x20#8 } (fun t => (statusByte t, t.err)) =
      some (0xC4#8, 0x21#8) := by decide

/-! ### Field Decoder (95_test_vectors.md 2.3) -/

/-- DB3, DB6, DN2, DN5: the splits of bytes 138 and 139. -/
theorem test_bit_splits :
    (let c := decodeCharging [(138, 0x07#8), (139, 0x12#8)]
     (c.chargeEnableBit, c.reservedLowBits, c.reservedHighNibble, c.contactorStatus, c.chargingState)) = (1#1, 3#3, 0#4, 1#4, 2#4) ∧
    (let c := decodeCharging [(138, 0xA7#8), (139, 0x3C#8)]
     (c.chargeEnableBit, c.reservedLowBits, c.reservedHighNibble, c.contactorStatus, c.chargingState)) =
      (1#1, 3#3, 10#4, 3#4, 12#4) := by decide

/-- DE4, DE6, C4: byte order, and charging voltage from the first field. -/
theorem test_multi_byte_fields :
    (decodeModule [(31, 0x80#8)] 0).voltageRaw = 32768#16 ∧
    (decodeCharging [(144, 0x78#8), (145, 0x56#8), (146, 0x34#8), (147, 0x12#8)]).demandCurrentRaw = 0x12345678#32 ∧
    (decodeCharging [(152, 0xA0#8), (153, 0x0F#8)]).chargingVoltageRaw = 4000#16 := by decide

/-- DE7: the DEC_CHG registers of `E`. -/
theorem test_charging_registers :
    regs decodedE 0x170 32 =
      [0x55, 0x62, 0x01, 0x03, 0x0A, 0x03, 0x0C, 0x2D, 0x2E, 0x1E, 0x02, 0x00, 0x4C, 0x1D, 0x00, 0x00,
       0xE8, 0x03, 0x00, 0x00, 0xA0, 0x0F, 0xF4, 0x01, 0x34, 0x12, 0x01, 0x00, 0x40, 0xE2, 0x01, 0x00] := by
  decide +kernel

/-- DE7: DEC_ACTIVE and DEC_MOD[1] of `E`. -/
theorem test_module_registers :
    readReg decodedE 0x120#9 = 0x05#8 ∧
    regs decodedE 0x138 8 = [0x11, 0x21, 0xFB, 0x00, 0x69, 0x00, 0xA1, 0x0F] := by decide +kernel

/-- DE11: decoding an empty buffer. -/
theorem test_decode_empty :
    after .decode State.reset (fun t => (statusByte t, t.err, t.df.isSome)) = some (0x84#8, 0x01#8, false) := by decide

/-- VA1 decoded: DE8's STATUS 0x2F, here on `Z`. -/
theorem test_decode_Z : after .decode (fed frameZ) (fun t => (statusByte t, t.out)) = some (0x2F#8, []) := by
  simp only [after, exec, execDecode, State.runDecode, State.runValidation, decodeFrame, fed, validate_frameZ]
  decide +kernel

/-! ### Telemetry Projector (95_test_vectors.md 2.4) -/

/-- PJ3. -/
theorem test_project_without_frame :
    after .project State.reset (fun t => (t.err, statusByte t, t.sumSeq, t.out)) = some (0x08#8, 0x80#8, 0#16, []) := by decide

/-- PJ4 and PJ7: the wrap of SUM_SEQ, and module 1 of `E` in the summary registers. -/
theorem test_project_wraps_and_shows_summary :
    after .project { decodedE with sumSeq := 0xFFFF#16 }
      (fun t => (t.sumSeq, t.out.map (·.seq), regs t 0x190 4, regs t 0x19A 6)) =
      some (0x0000#16, [0x0000#16], [0x55, 0x62, 0x01, 0x07], [0xFB, 0x00, 0x69, 0x00, 0xA1, 0x0F]) := by decide +kernel

/-! ### Control (95_test_vectors.md 2.6) -/

/-- CT1, on a state with something in it. -/
theorem test_nop : after .nop { State.reset with err := 0x05#8 } id = some { State.reset with err := 0x05#8 } := by decide

/-- R271's example, and CT2's kept flags. -/
theorem test_frameClear :
    after .frameClear { fed frameZ with frameLen := 257#16, err := 0x02#8 } (fun t => (t.fb, t.frameLen, t.err)) =
      some ([], 0#16, 0x02#8) := by decide

/-- CT3. -/
theorem test_process_Z :
    after .process (fed frameZ) (fun t => (statusByte t, t.err, t.sumSeq, t.out.length)) =
      some (0x3F#8, 0x00#8, 1#16, 1) := by
  simp only [after, exec, execProcess, State.runDecode, State.runValidation, decodeFrame, fed, validate_frameZ]
  decide +kernel

/-- CT4: NO_FRAME is not set. -/
theorem test_process_short :
    after .process { State.reset with frameLen := 255#16 } (fun t => (statusByte t, t.err, t.out)) =
      some (0x84#8, 0x01#8, []) := by decide

/-- R273's example, and CT6's kept OUT. -/
theorem test_reset :
    after .reset { decodedE with err := 0x04#8, crcAcc := 0x1234#16, out := [⟨1#16, project (decodeFields [] true)⟩] }
      (fun t => (t.err, t.crcAcc, t.df.isSome, t.out.length)) = some (0x00#8, 0xFFFF#16, false, 1) := by decide +kernel

/-- CT7 and CT8. -/
theorem test_cmdRsvd :
    after (.cmdRsvd08_0F 0x08#8) State.reset (fun t => (t.err, t.errOpc)) = some (0x04#8, 0x08#8) ∧
    after (.cmdRsvd80_FF 0xC3#8) { State.reset with err := 0x04#8, errOpc := 0x08#8 } (fun t => (t.err, t.errOpc)) =
      some (0x04#8, 0xC3#8) := by decide

/-- R274 on the rows between. -/
theorem test_cmdRsvd_middle_rows :
    after (.cmdRsvd10_1F 0x1F#8) State.reset (fun t => (t.err, t.errOpc)) = some (0x04#8, 0x1F#8) ∧
    after (.cmdRsvd20_3F 0x20#8) State.reset (fun t => (t.err, t.errOpc)) = some (0x04#8, 0x20#8) ∧
    after (.cmdRsvd40_7F 0x40#8) State.reset (fun t => (t.err, t.errOpc)) = some (0x04#8, 0x40#8) := by decide

/-! ### Host access (95_test_vectors.md 2.5) -/

/-- HA1 and HA2: the first and the last byte that is stored. -/
theorem test_wrFrameData_stores :
    after (.wrFrameData 0xAB#8) State.reset (fun t => (t.fb.read 0, t.frameLen, statusByte t)) = some (0xAB#8, 1#16, 0x00#8) ∧
    after (.wrFrameData 0xCD#8) { State.reset with frameLen := 255#16 } (fun t => (t.fb.read 255, t.frameLen, statusByte t)) =
      some (0xCD#8, 256#16, 0x20#8) := by decide

/-- HA3 and HA4: the first byte discarded, and the saturated length. -/
theorem test_wrFrameData_discards :
    after (.wrFrameData 0x11#8) (fed frameZ) (fun t => (t.fb, t.frameLen, statusByte t)) = some (frameZ, 257#16, 0xC0#8) ∧
    after (.wrFrameData 0x01#8) { State.reset with frameLen := 0xFFFF#16 } (fun t => (t.frameLen, t.err, statusByte t)) =
      some (0xFFFF#16, 0x20#8, 0xC0#8) := by decide

/-- HA5 and HA6. -/
theorem test_wrErr :
    after (.wrErr 0xC5#8) { State.reset with err := 0x3F#8 } (·.err) = some 0x3A#8 ∧
    after (.wrErr 0x00#8) { State.reset with err := 0x3F#8 } (·.err) = some 0x3F#8 := by decide

/-- HA8 and R145's example: the frame window is not written. -/
theorem test_wrRo_frame_window :
    after (.wrRo000_0FF 0x0FE#9 0x11#8) (fed frameZ) (fun t => (t.fb, t.err)) = some (frameZ, 0x10#8) := by decide

/-- HA7 and the other rows: ADDR_ERR and nothing else. -/
theorem test_wrRo_rows :
    [Instr.wrRo101 0#8, .wrRo104_105 0x104#9 0#8, .wrRo107 0#8, .wrRo108_10F 0x108#9 0#8, .wrRo110_11F 0x110#9 0#8,
      .wrRo120_13F 0x120#9 0#8, .wrRo140_17F 0x140#9 0#8, .wrRo180_1FF 0x1FF#9 0#8].all
      (fun i => after i State.reset id == some { State.reset with err := 0x10#8 }) = true := by decide

/-- HA9 to HA11, CE1: what reads return, and that they change nothing but the host's record. -/
theorem test_rd :
    after (.rd 0x108#9 0x00#8) State.reset id = some { State.reset with reads := [0xFF#8] } ∧
    after (.rd 0x102#9 0x5A#8) { State.reset with err := 0x01#8 } (fun t => (t.reads, t.err)) = some ([0x01#8], 0x01#8) := by
  decide

/-- HA9: the write-only ports and unmapped addresses. -/
theorem test_rd_unmapped :
    [0x1BE#9, 0x107#9, 0x100#9, 0x103#9, 0x106#9].map (readReg decodedE) = [0, 0, 0, 0, 0] := by decide +kernel

/-! ### Views (DE12, 1.7) -/

theorem test_bin4 : bin4 0x5#4 = ['0', '1', '0', '1'] ∧ bin4 0x1#4 = ['0', '0', '0', '1'] := by decide

/-- DE12: bytes 0x80 and 0xFF dropped, NULs kept. -/
theorem test_headerText :
    (headerText (slice (bytesAt 0 [0x50, 0x57, 0x52, 0x2D, 0x52, 0x45, 0x43, 0x54, 0x80, 0xFF, 0x76, 0x37] []) 0 20)).map
      Char.toNat = [80, 87, 82, 45, 82, 69, 67, 84, 118, 55, 0, 0, 0, 0, 0, 0, 0, 0] := by decide +kernel

/-- 1.7: raw 50 at a `/10.0` field is 5. -/
theorem test_physicalValue : physicalValue .moduleCurrent 50#16 = 5 := by decide +kernel

/-! ### Witnesses: concrete states and operands that meet the hypotheses of the statements -/

open Sys2Proof.Claims

/-- The next state of an outcome, if it has one. -/
def nextState : Host.Outcome State Fault Refusal → Option State
  | .next t => some t
  | .fault _ => none
  | .refused _ => none

/-- An outcome with a next state is that next state. -/
theorem next_of {o : Host.Outcome State Fault Refusal} {t : State} (h : nextState o = some t) : o = .next t := by
  cases o <;> cases h
  rfl

/-- A state with the host's inputs waiting. -/
def waiting (xs : List HostInput) : State := { State.reset with pending := xs }

/-- The frame `Z`, processed: every result present (95_test_vectors.md P2). -/
def processedZ : State :=
  { fed frameZ with
    vr := some (validate frameZ 256#16)
    df := some (decodeFields frameZ (validate frameZ 256#16).checksumValid)
    sum := some (project (decodeFields frameZ (validate frameZ 256#16).checksumValid))
    sumSeq := 1#16
    out := [⟨1#16, project (decodeFields frameZ (validate frameZ 256#16).checksumValid)⟩] }

theorem processedZ_inv (xs : List HostInput) : Inv (processedZ.withInputs xs) where
  memoryCanonical := by show frameZ.wf; decide
  decodedViewCurrent := fun d h => ⟨rfl, validate frameZ 256#16, rfl, by simp, (Option.some.inj h).symm⟩
  verdictCurrent := fun v h => (Option.some.inj h).symm
  zeroBeyondLength := fun k h1 h2 => absurd h1 (Nat.not_le.mpr (by simpa [State.withInputs, processedZ, fed] using h2))
  errReservedClear := by show (0x00#8).extractLsb' 6 2 = _; decide
  summaryMatchesOutput := ⟨rfl, rfl⟩

/-- The lengths on both sides of 256, and the ends of FRAME_LEN. -/
theorem witness_lengths :
    (256#16).toNat = 256 ∧ (255#16).toNat ≠ 256 ∧ (257#16).toNat ≠ 256 ∧ (0#16).toNat ≠ 256 ∧ (0xFFFF#16).toNat ≠ 256 := by
  decide

theorem witness_ReservedCommandResult :
    0x08 ≤ (0x08#8).toNat ∧ 0x08 ≤ (0xFF#8).toNat ∧ Instr.cmdRsvd08_0F 0x08#8 ∈ reservedRows 0x08#8 ∧
    Instr.cmdRsvd10_1F 0x1F#8 ∈ reservedRows 0x1F#8 ∧ Instr.cmdRsvd20_3F 0x20#8 ∈ reservedRows 0x20#8 ∧
    Instr.cmdRsvd40_7F 0x7F#8 ∈ reservedRows 0x7F#8 ∧ Instr.cmdRsvd80_FF 0xFF#8 ∈ reservedRows 0xFF#8 := by decide

theorem witness_ReservedOpcodeWordIsRejected : 0x08 ≤ (0x08#8).toNat ∧ 0x08 ≤ (0xFF#8).toNat := by decide

theorem witness_ProcessResult :
    (fed frameZ).frameLen.toNat = 256 ∧ State.reset.frameLen.toNat ≠ 256 ∧
    { State.reset with frameLen := 257#16 }.frameLen.toNat ≠ 256 := by decide

/-- A first and a last byte changed in the valid frame `Z`. -/
theorem witness_SingleByteCorruptionIsDetected :
    (0 < 256 ∧ frameZ.read 0 ≠ Memory.read ((0, 1#8) :: frameZ) 0 ∧
      (∀ j, j < 256 → j ≠ 0 → frameZ.read j = Memory.read ((0, 1#8) :: frameZ) j)) ∧
    (255 < 256 ∧ frameZ.read 255 ≠ Memory.read [(254, 0x4E#8), (255, 0x54#8)] 255 ∧
      (∀ j, j < 256 → j ≠ 255 → frameZ.read j = Memory.read [(254, 0x4E#8), (255, 0x54#8)] j)) ∧
    (validate frameZ 256#16).checksumValid = true :=
  ⟨by decide +kernel, by decide +kernel, by rw [validate_frameZ]⟩

/-- `Z` passes, an all-zero buffer does not (its checksum is 0x4E55 and its last bytes are 0), and 255 bytes are too short. -/
theorem witness_ValidateResult :
    { State.reset with frameLen := 255#16 }.frameLen.toNat ≠ 256 ∧ (fed frameZ).frameLen.toNat = 256 ∧
    (frameZ.read 254 ++ frameZ.read 255 : U16) = transform (checksum ((List.range 254).map frameZ.read)) ∧
    (Memory.read [] 254 ++ Memory.read [] 255 : U16) ≠ transform (checksum ((List.range 254).map (Memory.read []))) := by
  set_option maxRecDepth 20000 in decide +kernel

theorem witness_DecodeAbsentOnlyForLength :
    (255#16).toNat ≠ 256 ∧ (257#16).toNat ≠ 256 ∧ (0#16).toNat ≠ 256 ∧ (256#16).toNat = 256 := by decide

/-- The ends of the index ranges of OuterFieldsDecoded, ModuleFieldsDecoded, ProjectFunction and WriteErrResult. -/
theorem witness_index_ranges :
    (0 < 20 ∧ 19 < 20) ∧ 2 < 3 ∧ 3 < 4 ∧ 85 < 86 ∧ 1 < 2 ∧ (0 < 7 ∧ 6 < 7) ∧ 7 < 8 := by decide

theorem witness_DecodedScales :
    ScaledField.chargingCurrent ∈ [ScaledField.moduleCurrent, .moduleVoltage, .demandVoltage, .demandCurrent,
      .chargingVoltage, .chargingCurrent] ∧
    ScaledField.energyData ∈ [ScaledField.moduleAmbientTemperature, .batterySoc, .batterySoh, .positiveGunTemperature,
      .negativeGunTemperature, .chargingTimeMinute, .chargingTimeHour, .bstReason, .cstReason, .energyData] := by decide

theorem witness_ProjectResult : (∃ d, decodedE.df = some d) ∧ State.reset.df = none := ⟨⟨_, rfl⟩, rfl⟩

/-- An empty frame at address 0, and 255 received bytes at address 255. -/
theorem witness_ReadResult :
    (ZeroBeyondLength State.reset ∧ min State.reset.frameLen.toNat 256 ≤ (0#9).toNat ∧ (0#9).toNat < 256) ∧
    (ZeroBeyondLength { State.reset with fb := [(254, 1#8)], frameLen := 255#16 } ∧
      min (255#16).toNat 256 ≤ (255#9).toNat ∧ (255#9).toNat < 256) := by
  refine ⟨⟨fun _ _ _ => rfl, by decide⟩, fun k h1 h2 => ?_, by decide⟩
  have h1 : 255 ≤ k := h1
  obtain rfl : k = 255 := by omega
  decide

/-- The first and the last byte stored, the first discarded, and the saturated length. -/
theorem witness_FrameDataResult :
    State.reset.appendAddress = some 0 ∧ { State.reset with frameLen := 255#16 }.appendAddress = some 255 ∧
    (fed frameZ).appendAddress = none ∧ { State.reset with frameLen := 0xFFFF#16 }.appendAddress = none ∧
    State.reset.fb.wf ∧ (fed frameZ).fb.wf ∧ (1 : Nat) ≠ 0 ∧ (254 : Nat) ≠ 255 := by decide

theorem witness_ReadOnlyWriteResult :
    (∀ a ∈ [0x000#9, 0x0FF#9, 0x101#9, 0x104#9, 0x105#9, 0x107#9, 0x1FF#9], a ∉ writableAddresses) ∧
    Instr.wrRo000_0FF 0x0FF#9 0#8 ∈ readOnlyRows 0x0FF#9 0#8 ∧ Instr.wrRo101 0#8 ∈ readOnlyRows 0x101#9 0#8 ∧
    Instr.wrRo104_105 0x105#9 0#8 ∈ readOnlyRows 0x105#9 0#8 ∧ Instr.wrRo107 0#8 ∈ readOnlyRows 0x107#9 0#8 ∧
    Instr.wrRo108_10F 0x108#9 0#8 ∈ readOnlyRows 0x108#9 0#8 ∧ Instr.wrRo110_11F 0x110#9 0#8 ∈ readOnlyRows 0x110#9 0#8 ∧
    Instr.wrRo120_13F 0x13F#9 0#8 ∈ readOnlyRows 0x13F#9 0#8 ∧ Instr.wrRo140_17F 0x140#9 0#8 ∈ readOnlyRows 0x140#9 0#8 ∧
    Instr.wrRo180_1FF 0x1FF#9 0#8 ∈ readOnlyRows 0x1FF#9 0#8 := by decide

theorem witness_ReadOnlyWordSetsAddrErr :
    0x000#9 ∉ writableAddresses ∧ 0x101#9 ∉ writableAddresses ∧ 0x107#9 ∉ writableAddresses ∧ 0x1FF#9 ∉ writableAddresses := by
  decide

/-- Each record present and absent, with and without a state of health, and the ends of the ranges. -/
theorem witness_RegisterMapReads :
    ((∃ v, processedZ.vr = some v) ∧ State.reset.vr = none) ∧ ((∃ d, processedZ.df = some d) ∧ State.reset.df = none) ∧
    (∃ z h, processedZ.sum = some z ∧ z.stateOfHealth = some h) ∧
    (∃ z, { State.reset with sum := some ⟨0#8, none, Vector.replicate 7 ⟨0#16, 0#16, 0#16⟩⟩ }.sum = some z ∧
      z.stateOfHealth = none) ∧
    State.reset.sum = none ∧ 0x0FF ≤ 0x0FF ∧ (0x1BE ≤ 0x1FF ∧ 0x1FF ≤ 0x1FF) ∧ 6 < 7 :=
  ⟨⟨⟨_, rfl⟩, rfl⟩, ⟨⟨_, rfl⟩, rfl⟩, ⟨_, _, rfl, rfl⟩, ⟨_, rfl, rfl⟩, rfl, by decide, by decide, by decide⟩

/-- Both ends of every operand range. -/
theorem witness_wellFormed :
    [Instr.nop, .cmdRsvd08_0F 0x08#8, .cmdRsvd08_0F 0x0F#8, .cmdRsvd10_1F 0x10#8, .cmdRsvd10_1F 0x1F#8, .cmdRsvd20_3F 0x20#8,
      .cmdRsvd20_3F 0x3F#8, .cmdRsvd40_7F 0x40#8, .cmdRsvd40_7F 0x7F#8, .cmdRsvd80_FF 0x80#8, .cmdRsvd80_FF 0xFF#8].all
      Instr.wellFormed = true ∧
    [Instr.wrRo000_0FF 0x000#9 0#8, .wrRo000_0FF 0x0FF#9 0xFF#8, .wrRo104_105 0x104#9 0#8, .wrRo104_105 0x105#9 0#8,
      .wrRo108_10F 0x108#9 0#8, .wrRo108_10F 0x10F#9 0#8, .wrRo110_11F 0x110#9 0#8, .wrRo110_11F 0x11F#9 0#8,
      .wrRo120_13F 0x120#9 0#8, .wrRo120_13F 0x13F#9 0#8, .wrRo140_17F 0x140#9 0#8, .wrRo140_17F 0x17F#9 0#8,
      .wrRo180_1FF 0x180#9 0#8, .wrRo180_1FF 0x1FF#9 0#8, .rd 0x1FF#9 0xFF#8].all Instr.wellFormed = true := by decide

theorem witness_IssuedWordRunsInstruction : (Instr.wrRo180_1FF 0x1FF#9 0xFF#8).wellFormed = true := by decide
theorem witness_DecodeOfEncode : (Instr.cmdRsvd80_FF 0xFF#8).wellFormed = true := by decide

theorem witness_TransactionStepIsTotal :
    (waiting [.transaction 0x10800#18]).pending = .transaction 0x10800#18 :: [] ∧
    (0x10800#18).getLsbD 17 = false ∧ (0x30005#18).getLsbD 17 = true := by decide

theorem witness_RunsCompleteUnderPlatformRule :
    platformSafe [.reset, .transaction 0x30006#18] = true ∧ platformSafe [.reset, .resetDuring 0x30006#18] = false := by decide

theorem witness_AtMostOneFlagRaised :
    exec .project State.reset = .next { State.reset with err := 0x08#8 } ∧ exec .reset State.reset = .next State.reset ∧
    exec (.wrErr 0x3F#8) { State.reset with err := 0x3F#8 } = .next State.reset :=
  ⟨next_of (by decide), next_of (by decide), next_of (by decide)⟩

/-- Bits 0 and 5 cleared by WR_ERR and by reset, and a step of every kind leaves bits 6 and 7 clear. -/
theorem witness_ErrFlagsAreSticky :
    step { waiting [.transaction 0x30221#18] with err := 0x21#8 } = .next State.reset ∧
    step { waiting [.reset] with err := 0x21#8 } = .next State.reset ∧
    (0x21#8).getLsbD 0 = true ∧ (0x21#8).getLsbD 5 = true ∧ State.reset.err.getLsbD 0 = false ∧
    State.reset.err.getLsbD 5 = false ∧ State.reset.err.getLsbD 6 = false ∧ State.reset.err.getLsbD 7 = false :=
  ⟨next_of (by decide), next_of (by decide), by decide⟩

/-- FEED 0x11 at the last byte of the frame. -/
theorem witness_OnlyFramePortWritesBuffer :
    step { waiting [.transaction 0x30311#18] with frameLen := 255#16 } =
      .next { State.reset with fb := [(255, 0x11#8)], frameLen := 256#16 } ∧
    Memory.read [(255, 0x11#8)] 255 ≠ (waiting []).fb.read 255 := ⟨next_of (by decide), by decide⟩

theorem witness_FrameLenCountsWrites :
    step (waiting [.transaction 0x30300#18]) = .next { State.reset with frameLen := 1#16 } ∧
    (1#16 : U16) ≠ State.reset.frameLen := ⟨next_of (by decide), by decide⟩

theorem witness_OnlyChecksumPortWritesAccumulator :
    step (waiting [.transaction 0x30600#18]) = .next { State.reset with crcAcc := 0x40BF#16 } ∧
    (0x40BF#16 : U16) ≠ State.reset.crcAcc := ⟨next_of (by decide), by decide⟩

/-- A reserved opcode, a reset, and a NOP. -/
theorem witness_ErrOpcHoldsLastReservedOpcode :
    (0x08 ≤ (0xFF#8).toNat ∧ step (waiting [writeInput 0x100#9 0xFF#8]) =
      .next { State.reset with err := 0x04#8, errOpc := 0xFF#8 }) ∧
    (Resets .reset ∧ step (waiting [.reset]) = .next State.reset) ∧
    ((∀ d : Byte, 0x08 ≤ d.toNat → HostInput.transaction 0x30000#18 ≠ writeInput 0x100#9 d) ∧
      ¬ Resets (.transaction 0x30000#18) ∧ step (waiting [.transaction 0x30000#18]) = .next State.reset) := by
  refine ⟨⟨by decide, next_of (by decide)⟩, ⟨.inl rfl, next_of (by decide)⟩, by decide +kernel, ?_, next_of (by decide)⟩
  rintro (h | ⟨w, h, hw⟩)
  · cases h
  · cases h
    revert hw
    decide

/-- A step that emits, and one that does not. -/
theorem witness_OutputIsAppendOnly :
    (∃ t, step { decodedE with pending := [.transaction 0x30005#18] } = .next t ∧ t.out ≠ []) ∧
    step (waiting [.transaction 0x30005#18]) = .next { State.reset with err := 0x08#8 } :=
  ⟨⟨_, rfl, nofun⟩, next_of (by decide)⟩

theorem witness_SummaryPresentOnceProjected :
    ∃ t, step { decodedE with pending := [.transaction 0x30005#18] } = .next t ∧ t.sum ≠ none := ⟨_, rfl, nofun⟩

/-- A NOP neither resets nor ends a result. -/
theorem nop_ends_nothing : ¬ EndsResults (.transaction 0x30000#18) := by
  rintro ((h | ⟨w, h, hw⟩) | ⟨w, h, hw⟩ | ⟨d, w, h, hw⟩)
  · cases h
  all_goals
    cases h
    have hn : decodeWord 0x30000#18 = .nop := by decide
    rw [hn] at hw
    cases hw

/-- Every result present, then FRAME_CLEAR, which ends VR and DF, and NOP, which ends nothing. -/
theorem witness_ResultLifetimes :
    (∃ t, Inv (processedZ.withInputs [.transaction 0x30002#18]) ∧ EndsResults (.transaction 0x30002#18) ∧
      ¬ Resets (.transaction 0x30002#18) ∧ step (processedZ.withInputs [.transaction 0x30002#18]) = .next t) ∧
    (∃ t, Inv (processedZ.withInputs [.transaction 0x30000#18]) ∧ ¬ EndsResults (.transaction 0x30000#18) ∧
      step (processedZ.withInputs [.transaction 0x30000#18]) = .next t) ∧
    (processedZ.vr.isSome && processedZ.df.isSome && processedZ.sum.isSome) = true := by
  refine ⟨⟨_, processedZ_inv _, .inr (.inl ⟨_, rfl, by decide⟩), ?_, rfl⟩, ⟨_, processedZ_inv _, nop_ends_nothing, rfl⟩, rfl⟩
  rintro (h | ⟨w, h, hw⟩)
  · cases h
  · cases h
    have hc : decodeWord 0x30002#18 = .frameClear := by decide
    rw [hc] at hw
    cases hw

theorem witness_WhichWritesAreIdempotent :
    exec .validate State.reset = .next { State.reset with vr := some ⟨false, false, 0#16, 0#16⟩, err := 0x01#8 } ∧
    (Instr.validate ≠ .project ∧ Instr.validate ≠ .process ∧ (∀ d, Instr.validate ≠ .wrFrameData d) ∧
      (∀ d, Instr.validate ≠ .wrCrcData d) ∧ (∀ a d, Instr.validate ≠ .rd a d)) ∧
    (∃ d, decodedE.df = some d) ∧ (fed frameZ).frameLen.toNat = 256 :=
  ⟨next_of (by decide), ⟨nofun, nofun, nofun, nofun, nofun⟩, ⟨_, rfl⟩, rfl⟩

theorem witness_ChecksumStreamAndFramePathIndependent :
    (Instr.process ≠ .crcInit ∧ (∀ d, Instr.process ≠ .wrCrcData d) ∧ Instr.process ≠ .reset ∧
      ∀ a d, Instr.process ≠ .rd a d) ∧
    (Instr.wrCrcData 0xFF#8 = .crcInit ∨ ∃ d, Instr.wrCrcData 0xFF#8 = .wrCrcData d) ∧ State.reset.crcAcc = 0xFFFF#16 :=
  ⟨⟨nofun, nofun, nofun, nofun⟩, .inr ⟨_, rfl⟩, rfl⟩

theorem witness_DecodedViewMatchesFrameWindow : Inv (processedZ.withInputs []) ∧ ∃ d, processedZ.df = some d :=
  ⟨processedZ_inv [], _, rfl⟩

theorem witness_StepKeepsInvariant :
    ∃ t, Inv (processedZ.withInputs [.transaction 0x303AB#18]) ∧
      step (processedZ.withInputs [.transaction 0x303AB#18]) = .next t := ⟨_, processedZ_inv _, rfl⟩

theorem witness_FrameSequenceDeliversSummary :
    (List.replicate 256 0xFF#8).length = 256 ∧ (List.replicate 255 0xFF#8).length ≠ 256 ∧ ([] : List Byte).length ≠ 256 := by
  simp only [List.length_replicate, List.length_nil]
  decide

theorem witness_ProcessIsValidateDecodeProject :
    (fed frameZ).frameLen.toNat = 256 ∧ { State.reset with frameLen := 257#16 }.frameLen.toNat ≠ 256 := by decide

/-- A NOP from reset, and a NOP, a reset and a NOP. -/
theorem witness_ReachableStatesKeepInvariants :
    (runInputs [.transaction 0x30000#18] State.reset = .next State.reset ∧
      ∀ x ∈ [HostInput.transaction 0x30000#18], ¬ Resets x) ∧
    (runInputs [.transaction 0x30000#18, .reset, .transaction 0x30000#18] State.reset = .next State.reset ∧
      [HostInput.transaction 0x30000#18, .reset, .transaction 0x30000#18] =
        [.transaction 0x30000#18] ++ .reset :: [.transaction 0x30000#18] ∧ Resets .reset) := by
  refine ⟨⟨next_of (by decide), fun x hx hr => ?_⟩, next_of (by decide), rfl, .inl rfl⟩
  rw [List.mem_singleton.mp hx] at hr
  exact nop_ends_nothing (.inl hr)

theorem witness_CommandOpcodeMap : 0x08 ≤ (0x08#8).toNat ∧ 0x08 ≤ (0xFF#8).toNat := by decide

/-- A read, and a write to each kind of address. -/
theorem witness_DispatchByFields :
    (0x1FFFF#18).getLsbD 17 = false ∧
    ((0x30007#18).getLsbD 17 = true ∧ (0x30007#18).extractLsb' 8 9 = 0x100#9) ∧ (0x302FF#18).extractLsb' 8 9 = 0x102#9 ∧
    (0x30300#18).extractLsb' 8 9 = 0x103#9 ∧ (0x306FF#18).extractLsb' 8 9 = 0x106#9 ∧
    ((0x3FFFF#18).getLsbD 17 = true ∧ (0x3FFFF#18).extractLsb' 8 9 ∉ writableAddresses) ∧
    (0x20000#18).extractLsb' 8 9 ∉ writableAddresses := by decide

end Sys2Proof.Tests
end

/-! The statements of spec/00_scope.md: a step on a transaction completes (R14), and so does a run that keeps
the platform's rule (R340). -/

namespace Sys2Proof

/-! ### Which words are reads (R80) -/

/-- No branch of the command map is a read (R83, R84). -/
theorem decodeCommand_ne_rd (d : Byte) (a : Addr) (e : Byte) : decodeCommand d ≠ .rd a e := by
  simp [decodeCommand, ite_eq_iff]

/-- No branch of the non-writable map is a read (R85). -/
theorem decodeReadOnlyWrite_ne_rd (b : Addr) (d : Byte) (a : Addr) (e : Byte) : decodeReadOnlyWrite b d ≠ .rd a e := by
  simp [decodeReadOnlyWrite, ite_eq_iff]

/-- A word with W = 0 is a read of its address. -/
theorem decodeWord_of_read (w : TxWord) (h : txWrite w = false) : decodeWord w = .rd (txAddr w) (txData w) :=
  if_pos h

/-- A word with W = 1 is no read. -/
theorem decodeWord_ne_rd_of_write (w : TxWord) (h : txWrite w = true) (a : Addr) (d : Byte) :
    decodeWord w ≠ .rd a d := by
  unfold decodeWord decodeFieldsOfWord
  rw [h, if_neg (by decide)]
  split_ifs
  · exact decodeCommand_ne_rd _ a d
  · nofun
  · nofun
  · nofun
  · exact decodeReadOnlyWrite_ne_rd _ _ a d

end Sys2Proof

namespace Sys2Proof.Machine

/-! ### What a transaction answers and emits (R14) -/

/-- Only a read returns a byte. -/
theorem effect_reads_of_ne_rd (i : Instr) (s : State) (h : ∀ a d, i ≠ .rd a d) : (effect i s).reads = s.reads := by
  cases i with
  | rd a d => exact absurd rfl (h a d)
  | process =>
    simp only [effect]
    split <;> simp
  | _ => simp [effect]

/-- PROJECT only appends to the output stream. -/
theorem State.runProject_out_grows (s : State) : s.out <+: s.runProject.out := by
  obtain ⟨z, hz⟩ | hz := s.runProject_cases
  · rw [hz, State.publish_out]
    exact ⟨_, rfl⟩
  · rw [hz, State.seterr_out]

/-- Every transaction only appends to the output stream (R33). -/
theorem effect_out_grows (i : Instr) (s : State) : s.out <+: (effect i s).out := by
  cases i with
  | project => exact s.runProject_out_grows
  | process =>
    simp only [effect]
    split
    · simpa using s.runDecode.runProject_out_grows
    · simp
  | _ => simp [effect]

/-- A step with a transaction waiting completes with the transaction's effect. -/
theorem step_of_transaction (s : State) (w : TxWord) (rest : List HostInput) (h : s.pending = .transaction w :: rest) :
    step s = .next (effect (decodeWord w) (s.withInputs rest)) := by
  simp only [step, State.takeInput, h]
  exact exec_eq_effect _ _

/-- Settles O35: the next state is the decoded instruction's effect; a read word decodes to `rd`, a write word to any
other instruction. -/
theorem transactionStepIsTotal : Obligations.TransactionStepIsTotal := by
  intro s w rest hp
  refine ⟨_, step_of_transaction s w rest hp, effect_pending _ _, fun hread => ?_, fun hwrite => ?_, ?_⟩
  · rw [decodeWord_of_read w hread]
    rfl
  · exact effect_reads_of_ne_rd _ _ (decodeWord_ne_rd_of_write w hwrite)
  · obtain ⟨es, hes⟩ := effect_out_grows (decodeWord w) (s.withInputs rest)
    exact ⟨es, hes.symm⟩

/-! ### Runs under the platform's rule (R340) -/

@[simp] theorem platformSafe_transaction (w : TxWord) (xs : List HostInput) :
    platformSafe (.transaction w :: xs) = platformSafe xs := rfl

@[simp] theorem platformSafe_reset (xs : List HostInput) : platformSafe (.reset :: xs) = platformSafe xs := rfl

@[simp] theorem platformSafe_resetDuring (w : TxWord) (xs : List HostInput) :
    platformSafe (.resetDuring w :: xs) = false := rfl

/-- Settles O36, by induction on the inputs: a transaction and a reset lead to a run of the rest from another state, and a
reset inside a transaction ends the run. -/
theorem runsCompleteUnderPlatformRule : Obligations.RunsCompleteUnderPlatformRule := by
  intro xs
  induction xs with
  | nil => exact fun s => ⟨fun _ => ⟨_, runInputs_nil s, rfl⟩, nofun⟩
  | cons x xs ih =>
    intro s
    cases x with
    | transaction w =>
      rw [platformSafe_transaction, runInputs_transaction]
      exact ih _
    | reset =>
      rw [platformSafe_reset, runInputs_reset]
      exact ih _
    | resetDuring w => exact ⟨nofun, fun _ => runInputs_resetDuring w xs s⟩

end Sys2Proof.Machine

/-! The statements of spec/10_state.md: what a transaction may do to each group of components (R20 to R33), said once
per group, and the invariants of R38 that follow. -/

namespace Sys2Proof.Machine

open Sys2Proof.Claims

/-! ### The buffer and its results under a transaction (R21, R22, R24, R26) -/

/-- The buffer, its length and the results taken from it. -/
structure FrameIs (t : State) (fb : Memory) (len : U16) (vr : Option ValResult) (df : Option DecodedFrame) : Prop where
  fb : t.fb = fb
  frameLen : t.frameLen = len
  vr : t.vr = vr
  df : t.df = df

/-- PROJECT leaves the buffer and its results as they were. -/
theorem State.runProject_frame (s : State) : FrameIs s.runProject s.fb s.frameLen s.vr s.df := by
  obtain ⟨z, hz⟩ | hz := s.runProject_cases
  all_goals rw [hz]; exact ⟨rfl, rfl, rfl, rfl⟩

/-- PROCESS is DECODE, with a publication after it if a frame was decoded (R272). -/
theorem effect_process_cases (s : State) :
    effect .process s = s.runDecode ∨ ∃ d, effect .process s = s.runDecode.publish (project d) := by
  by_cases h : s.frameLen.toNat = 256
  · have hd : s.runDecode.df = some _ := s.runDecode_df.trans (decodeFrame_of_eq _ _ h)
    exact .inr ⟨_, (if_pos h).trans (State.runProject_of_some _ _ hd)⟩
  · exact .inl (if_neg h)

/-- A transaction keeps the buffer and its results, validates, decodes, empties the buffer, or appends a byte. -/
theorem effect_frame_cases (i : Instr) (s : State) :
    FrameIs (effect i s) s.fb s.frameLen s.vr s.df ∨
    FrameIs (effect i s) s.fb s.frameLen (some (validate s.fb s.frameLen)) s.df ∨
    FrameIs (effect i s) s.fb s.frameLen (some (validate s.fb s.frameLen)) (decodeFrame s.fb s.frameLen) ∨
    ((i = .reset ∨ i = .frameClear) ∧ FrameIs (effect i s) [] 0x0000#16 none none) ∨
    ∃ d, i = .wrFrameData d ∧ FrameIs (effect i s) (s.storeFrameByte d).fb (nextFrameLen s.frameLen) none none := by
  have decoded : FrameIs s.runDecode s.fb s.frameLen (some (validate s.fb s.frameLen)) (decodeFrame s.fb s.frameLen) :=
    ⟨by simp, by simp, by simp, by simp⟩
  cases i with
  | validate => exact .inr (.inl ⟨s.runValidation_fb, s.runValidation_frameLen, s.runValidation_vr, s.runValidation_df⟩)
  | decode => exact .inr (.inr (.inl decoded))
  | project => exact .inl s.runProject_frame
  | process =>
    refine .inr (.inr (.inl ?_))
    obtain h | ⟨d, h⟩ := effect_process_cases s
    · rw [h]; exact decoded
    · rw [h]; exact ⟨decoded.fb, decoded.frameLen, decoded.vr, decoded.df⟩
  | frameClear => exact .inr (.inr (.inr (.inl ⟨.inr rfl, rfl, rfl, rfl, rfl⟩)))
  | reset => exact .inr (.inr (.inr (.inl ⟨.inl rfl, rfl, rfl, rfl, rfl⟩)))
  | wrFrameData d =>
    exact .inr (.inr (.inr (.inr ⟨d, rfl, rfl, congrArg nextFrameLen (s.storeFrameByte_frameLen d), rfl, rfl⟩)))
  | _ => exact .inl ⟨rfl, rfl, rfl, rfl⟩

/-! ### The summary and the output stream under a transaction (R29, R30, R33) -/

/-- The summary, its number and the output stream are those of `s`. -/
structure KeepsOutput (s t : State) : Prop where
  sum : t.sum = s.sum
  sumSeq : t.sumSeq = s.sumSeq
  out : t.out = s.out

/-- The summary `z` is recorded under the next number, and its event emitted. -/
structure Publishes (s t : State) (z : TelemetrySummary) : Prop where
  sum : t.sum = some z
  sumSeq : t.sumSeq = s.sumSeq + 1#16
  out : t.out = s.out ++ [⟨t.sumSeq, z⟩]

/-- A transaction other than RESET keeps the output, or publishes the projection of a decoded frame. -/
theorem effect_output_cases (i : Instr) (s : State) (hi : i ≠ .reset) :
    KeepsOutput s (effect i s) ∨ ∃ d, Publishes s (effect i s) (project d) := by
  have decoded : KeepsOutput s s.runDecode := ⟨s.runDecode_sum, s.runDecode_sumSeq, s.runDecode_out⟩
  cases i with
  | reset => exact absurd rfl hi
  | validate => exact .inl ⟨s.runValidation_sum, s.runValidation_sumSeq, s.runValidation_out⟩
  | decode => exact .inl decoded
  | project =>
    rcases hd : s.df with _ | d
    · exact .inl (by rw [effect, s.runProject_of_none hd]; exact ⟨rfl, rfl, rfl⟩)
    · exact .inr ⟨d, by rw [effect, s.runProject_of_some d hd]; exact ⟨rfl, rfl, rfl⟩⟩
  | process =>
    obtain h | ⟨d, h⟩ := effect_process_cases s
    · exact .inl (h ▸ decoded)
    · exact .inr ⟨d, by rw [h]; exact ⟨rfl, by simp, by simp⟩⟩
  | wrFrameData d =>
    exact .inl ⟨s.storeFrameByte_sum d, s.storeFrameByte_sumSeq d, s.storeFrameByte_out d⟩
  | _ => exact .inl ⟨rfl, rfl, rfl⟩

/-! ### The error flags under a transaction (R31, R309) -/

/-- A verdict raises LEN_ERR or CRC_MISMATCH, or nothing (R182). -/
theorem State.flagVerdict_cases (s : State) (v : ValResult) :
    s.flagVerdict v = s ∨ ∃ f ∈ [ErrFlag.lenErr, .crcMismatch], s.flagVerdict v = s.seterr f := by
  unfold State.flagVerdict
  split_ifs
  · exact .inr ⟨.lenErr, by simp, rfl⟩
  · exact .inr ⟨.crcMismatch, by simp, rfl⟩
  · exact .inl rfl

/-- So does a validation. -/
theorem State.runValidation_err_cases (s : State) :
    s.runValidation.err = s.err ∨
      ∃ f ∈ [ErrFlag.lenErr, .crcMismatch], s.runValidation.err = s.err ||| f.mask := by
  obtain h | ⟨f, hf, h⟩ := (s.setVr (validate s.fb s.frameLen)).flagVerdict_cases (validate s.fb s.frameLen)
  · have he := congrArg State.err h
    exact .inl he
  · have he := congrArg State.err h
    exact .inr ⟨f, hf, he⟩

/-- What a transaction does to ERR: RESET zeroes it, WR_ERR clears its mask's bits, and any other keeps it or raises one
flag of its row. -/
theorem effect_err_cases (i : Instr) (s : State) :
    (i = .reset ∧ (effect i s).err = 0x00#8) ∨ (∃ d, i = .wrErr d ∧ (effect i s).err = clearFlags s.err d) ∨
    (effect i s).err = s.err ∨ ∃ f ∈ mayRaise i, (effect i s).err = s.err ||| f.mask := by
  cases i with
  | reset => exact .inl ⟨rfl, rfl⟩
  | wrErr d => exact .inr (.inl ⟨d, rfl, rfl⟩)
  | validate => exact .inr (.inr s.runValidation_err_cases)
  | decode => exact .inr (.inr s.runValidation_err_cases)
  | process =>
    have hv : (effect .process s).err = s.runValidation.err := by
      obtain h | ⟨d, h⟩ := effect_process_cases s
      all_goals rw [h]; rfl
    rw [hv]
    exact .inr (.inr s.runValidation_err_cases)
  | project =>
    rcases hd : s.df with _ | d
    · exact .inr (.inr (.inr ⟨.noFrame, .head _, by rw [effect, s.runProject_of_none hd]; rfl⟩))
    · exact .inr (.inr (.inl (by rw [effect, s.runProject_of_some d hd]; rfl)))
  | wrFrameData d =>
    rcases ha : s.appendAddress with _ | a
    · exact .inr (.inr (.inr ⟨.frameOvf, .head _, by rw [effect, s.storeFrameByte_of_none d ha]; rfl⟩))
    · exact .inr (.inr (.inl (by rw [effect, s.storeFrameByte_of_some d a ha]; rfl)))
  | nop | crcInit | frameClear | wrCrcData | rd => exact .inr (.inr (.inl rfl))
  | _ => exact .inr (.inr (.inr ⟨_, .head _, rfl⟩))

/-- ERR after a W1C write, bit by bit (R144). -/
theorem clearFlags_getLsbD (e d : Byte) (b : Nat) :
    (clearFlags e d).getLsbD b = (e.getLsbD b && !(d.getLsbD b && w1cMask.getLsbD b)) := by
  by_cases hb : b < 8
  · simp [clearFlags, hb]
  · simp [clearFlags, BitVec.getLsbD_of_ge _ b (Nat.not_lt.mp hb)]

/-- A clear reserved bit of ERR stays clear: no flag's mask has it (R36). -/
theorem effect_err_reserved (i : Instr) (s : State) (b : Nat) (hb : 6 ≤ b) (h : s.err.getLsbD b = false) :
    (effect i s).err.getLsbD b = false := by
  obtain ⟨-, he⟩ | ⟨d, -, he⟩ | he | ⟨f, -, he⟩ := effect_err_cases i s
  · rw [he, BitVec.getLsbD_zero]
  · rw [he, clearFlags_getLsbD, h, Bool.false_and]
  · rw [he, h]
  · rw [he, BitVec.getLsbD_or, h, f.mask_getLsbD_of_ge b hb, Bool.false_or]

/-- R38 item 4, bit by bit. -/
theorem errReservedClear_iff (s : State) : ErrReservedClear s ↔ ∀ b, 6 ≤ b → s.err.getLsbD b = false := by
  constructor
  · intro h b hb
    have hbit := congrArg (fun v => v.getLsbD (b - 6)) h
    simp only [BitVec.getLsbD_extractLsb', BitVec.getLsbD_zero, Nat.add_sub_cancel' hb] at hbit
    by_cases h8 : b < 8
    · simpa [(by omega : b - 6 < 2)] using hbit
    · exact BitVec.getLsbD_of_ge _ b (by omega)
  · intro h
    apply BitVec.eq_of_getLsbD_eq
    intro i hi
    rw [BitVec.getLsbD_extractLsb', h _ (Nat.le_add_right 6 i), Bool.and_false, BitVec.getLsbD_zero]

/-! ### The invariant under a transaction (R38) -/

/-- The items of the invariant that speak of the buffer and its results. -/
structure FrameInv (s : State) : Prop where
  memoryCanonical : s.fb.wf
  decodedViewCurrent : DecodedViewCurrent s
  verdictCurrent : VerdictCurrent s
  zeroBeyondLength : ZeroBeyondLength s

theorem Inv.frame {s : State} (h : Inv s) : FrameInv s :=
  ⟨h.memoryCanonical, h.decodedViewCurrent, h.verdictCurrent, h.zeroBeyondLength⟩

/-- Without results there are only the buffer's own items to keep. -/
theorem FrameInv.of_no_results {t : State} (hvr : t.vr = none) (hdf : t.df = none) (hwf : t.fb.wf)
    (hz : ZeroBeyondLength t) : FrameInv t where
  memoryCanonical := hwf
  decodedViewCurrent d hd := by rw [hdf] at hd; cases hd
  verdictCurrent v hv := by rw [hvr] at hv; cases hv
  zeroBeyondLength := hz

/-- An unchanged buffer keeps its items; the results have to be those of it. -/
theorem FrameInv.of_same_buffer {s t : State} (h : FrameInv s) (hfb : t.fb = s.fb) (hlen : t.frameLen = s.frameLen)
    (hdf : DecodedViewCurrent t) (hvr : VerdictCurrent t) : FrameInv t where
  memoryCanonical := hfb ▸ h.memoryCanonical
  decodedViewCurrent := hdf
  verdictCurrent := hvr
  zeroBeyondLength := by
    have hz := h.zeroBeyondLength
    unfold ZeroBeyondLength at hz ⊢
    rwa [hfb, hlen]

/-- A fresh verdict is that of the buffer. -/
theorem VerdictCurrent.of_validated {t : State} (hvr : t.vr = some (validate t.fb t.frameLen)) : VerdictCurrent t :=
  fun _ hv => Option.some.inj (hv.symm.trans hvr)

/-- A decoded frame that was current stays so under a fresh verdict: the old verdict was the same one. -/
theorem DecodedViewCurrent.of_validated {s t : State} (h : FrameInv s) (hfb : t.fb = s.fb)
    (hlen : t.frameLen = s.frameLen) (hvr : t.vr = some (validate s.fb s.frameLen)) (hdf : t.df = s.df) :
    DecodedViewCurrent t := by
  intro d hd
  obtain ⟨h256, v, hv, hok, hdec⟩ := h.decodedViewCurrent d (hdf ▸ hd)
  obtain rfl := h.verdictCurrent v hv
  exact ⟨by rw [hlen, h256], _, hvr, hok, by rw [hfb, hdec]⟩

/-- A freshly decoded frame is current (R200, R220). -/
theorem DecodedViewCurrent.of_decoded {t : State} (hvr : t.vr = some (validate t.fb t.frameLen))
    (hdf : t.df = decodeFrame t.fb t.frameLen) : DecodedViewCurrent t := by
  intro d hd
  rw [hdf] at hd
  by_cases h256 : t.frameLen.toNat = 256
  · rw [decodeFrame_of_eq _ _ h256] at hd
    exact ⟨h256, _, hvr, by simp [h256], (Option.some.inj hd).symm⟩
  · rw [decodeFrame_of_ne _ _ h256] at hd
    cases hd

/-- The address a FRAME_DATA write stores to is FRAME_LEN, inside the buffer (R142). -/
theorem State.appendAddress_eq_some_iff (s : State) (a : Nat) :
    s.appendAddress = some a ↔ s.frameLen.toNat < 256 ∧ a = s.frameLen.toNat := by
  simp [State.appendAddress, eq_comm]

/-- There is no such address exactly when the buffer is full (R142). -/
theorem State.appendAddress_eq_none_iff (s : State) : s.appendAddress = none ↔ 256 ≤ s.frameLen.toNat := by
  simp [State.appendAddress]

/-- A stored byte keeps the canonical form (R21). -/
theorem State.storeFrameByte_wf (s : State) (d : Byte) (h : s.fb.wf) : (s.storeFrameByte d).fb.wf := by
  rcases ha : s.appendAddress with _ | a
  · rw [s.storeFrameByte_of_none d ha]
    exact h
  · rw [s.storeFrameByte_of_some d a ha]
    obtain ⟨hlt, rfl⟩ := (s.appendAddress_eq_some_iff a).mp ha
    exact Memory.wf_write _ _ d h hlt

/-- A FRAME_DATA write changes no byte but the one at its address. -/
theorem State.storeFrameByte_read (s : State) (d : Byte) (k : Nat) (hk : s.appendAddress ≠ some k) :
    (s.storeFrameByte d).fb.read k = s.fb.read k := by
  rcases ha : s.appendAddress with _ | a
  · rw [s.storeFrameByte_of_none d ha, State.seterr_fb]
  · rw [s.storeFrameByte_of_some d a ha]
    exact Memory.read_write_of_ne _ _ _ _ fun hka => hk (hka ▸ ha)

/-- After a FRAME_DATA write the buffer is still zero beyond its length, which has grown past the stored byte. -/
theorem ZeroBeyondLength.of_appended {s t : State} {d : Byte} (h : ZeroBeyondLength s)
    (hfb : t.fb = (s.storeFrameByte d).fb) (hlen : t.frameLen = nextFrameLen s.frameLen) : ZeroBeyondLength t := by
  intro k hk h256
  rw [hlen, nextFrameLen_toNat] at hk
  have hne : s.appendAddress ≠ some k := by
    rw [Ne, State.appendAddress_eq_some_iff]
    omega
  rw [hfb, s.storeFrameByte_read d k hne]
  exact h k (by omega) h256

/-- Every transaction keeps the items about the buffer. -/
theorem effect_frameInv (i : Instr) (s : State) (h : FrameInv s) : FrameInv (effect i s) := by
  obtain hf | hf | hf | ⟨-, hf⟩ | ⟨d, -, hf⟩ := effect_frame_cases i s
  · have hd := h.decodedViewCurrent
    have hv := h.verdictCurrent
    refine h.of_same_buffer hf.fb hf.frameLen ?_ ?_
    · unfold DecodedViewCurrent; rwa [hf.df, hf.frameLen, hf.vr, hf.fb]
    · unfold VerdictCurrent; rwa [hf.vr, hf.fb, hf.frameLen]
  · refine h.of_same_buffer hf.fb hf.frameLen (.of_validated h hf.fb hf.frameLen hf.vr hf.df) (.of_validated ?_)
    rw [hf.vr, hf.fb, hf.frameLen]
  · have hvr : (effect i s).vr = some (validate (effect i s).fb (effect i s).frameLen) := by
      rw [hf.vr, hf.fb, hf.frameLen]
    refine h.of_same_buffer hf.fb hf.frameLen (.of_decoded hvr ?_) (.of_validated hvr)
    rw [hf.df, hf.fb, hf.frameLen]
  · refine .of_no_results hf.vr hf.df (hf.fb ▸ Memory.wf_nil) fun k _ _ => ?_
    rw [hf.fb, Memory.read_nil]
  · exact .of_no_results hf.vr hf.df (hf.fb ▸ s.storeFrameByte_wf d h.memoryCanonical)
      (h.zeroBeyondLength.of_appended hf.fb hf.frameLen)

/-- Every transaction keeps the summary's agreement with the last event. -/
theorem effect_summaryMatchesOutput (i : Instr) (s : State) (h : SummaryMatchesOutput s) :
    SummaryMatchesOutput (effect i s) := by
  by_cases hi : i = .reset
  · subst hi
    rfl
  · unfold SummaryMatchesOutput at h ⊢
    obtain hk | ⟨d, hp⟩ := effect_output_cases i s hi
    · rwa [hk.sum, hk.out, hk.sumSeq]
    · rw [hp.sum, hp.out]
      exact ⟨List.getLast?_concat, rfl⟩

/-- Every transaction keeps the invariant. -/
theorem effect_inv (i : Instr) (s : State) (h : Inv s) : Inv (effect i s) := by
  obtain ⟨hwf, hdf, hvr, hz⟩ := effect_frameInv i s h.frame
  refine ⟨hwf, hdf, hvr, hz, ?_, effect_summaryMatchesOutput i s h.summaryMatchesOutput⟩
  rw [errReservedClear_iff]
  exact fun b hb => effect_err_reserved i s b hb ((errReservedClear_iff s).mp h.errReservedClear b hb)

/-- The invariant does not speak of the host port. -/
theorem Inv.withInputs {s : State} (h : Inv s) (xs : List HostInput) : Inv (s.withInputs xs) := by
  obtain ⟨hwf, hdf, hvr, hz, he, hs⟩ := h
  exact ⟨hwf, hdf, hvr, hz, he, hs⟩

/-- Settles O50: a step takes an input off the host port and applies a transaction's effect, or RESET's. -/
theorem stepKeepsInvariant : Obligations.StepKeepsInvariant := by
  intro s t h hstep
  obtain ⟨-, rfl⟩ | ⟨w, rest, -, rfl⟩ | ⟨rest, -, rfl⟩ := step_cases hstep
  · exact h
  · exact effect_inv _ _ (h.withInputs rest)
  · exact effect_inv .reset _ (h.withInputs rest)

/-! ### What an input of the host does (R57, R62, R330) -/

/-- An input runs one instruction at most. -/
theorem runs_unique {x : HostInput} {i j : Instr} (hi : Runs x i) (hj : Runs x j) : i = j := by
  obtain ⟨w, rfl, rfl⟩ := hi
  obtain ⟨w', hw, rfl⟩ := hj
  cases hw
  rfl

/-- An input that runs another instruction is no reset. -/
theorem not_resets_of_runs {x : HostInput} {i : Instr} (h : Runs x i) (hi : i ≠ .reset) : ¬ Resets x := by
  rintro (rfl | hr)
  · obtain ⟨w, hw, -⟩ := h
    cases hw
  · exact hi (runs_unique h hr)

/-- A step holds the state, resets it, or runs an instruction other than RESET. -/
theorem step_input_cases {s t : State} (h : step s = .next t) :
    (s.pending = [] ∧ t = s) ∨ ∃ x rest, s.pending = x :: rest ∧
      ((Resets x ∧ t = (s.withInputs rest).toReset) ∨
        ∃ i, i ≠ .reset ∧ Runs x i ∧ t = effect i (s.withInputs rest)) := by
  obtain hidle | ⟨w, rest, hp, rfl⟩ | ⟨rest, hp, rfl⟩ := step_cases h
  · exact .inl hidle
  · refine .inr ⟨_, rest, hp, ?_⟩
    by_cases hr : decodeWord w = .reset
    · exact .inl ⟨.inr ⟨w, rfl, hr⟩, by rw [hr, effect]⟩
    · exact .inr ⟨_, hr, ⟨w, rfl, rfl⟩, rfl⟩
  · exact .inr ⟨_, rest, hp, .inl ⟨.inl rfl, rfl⟩⟩

/-- A step that changes a component of the engine has an input, which resets or runs an instruction that changes it. -/
theorem step_changes {α : Type} (f : State → α) (hf : ∀ s xs, f (s.withInputs xs) = f s) {s t : State}
    (h : step s = .next t) (hne : f t ≠ f s) :
    ∃ x rest, s.pending = x :: rest ∧
      (Resets x ∨ ∃ i, i ≠ .reset ∧ Runs x i ∧ f (effect i (s.withInputs rest)) ≠ f (s.withInputs rest)) := by
  obtain ⟨-, rfl⟩ | ⟨x, rest, hp, ⟨hr, -⟩ | ⟨i, hi, hrun, rfl⟩⟩ := step_input_cases h
  · exact absurd rfl hne
  · exact ⟨x, rest, hp, .inl hr⟩
  · exact ⟨x, rest, hp, .inr ⟨i, hi, hrun, by rwa [hf]⟩⟩

/-! ### Who writes each component (R21 to R23, R31, R32) -/

/-- Beside RESET, only WR_ERR clears a flag, and only under its mask bit (R31). -/
theorem effect_err_cleared (i : Instr) (s : State) (b : Nat) (hi : i ≠ .reset) (hs : s.err.getLsbD b = true)
    (ht : (effect i s).err.getLsbD b = false) : ∃ d, i = .wrErr d ∧ d.getLsbD b = true := by
  obtain ⟨hr, -⟩ | ⟨d, rfl, he⟩ | he | ⟨f, -, he⟩ := effect_err_cases i s
  · exact absurd hr hi
  · rw [he, clearFlags_getLsbD, hs] at ht
    refine ⟨d, rfl, ?_⟩
    simp_all
  · rw [he, hs] at ht
    cases ht
  · rw [he, BitVec.getLsbD_or, hs] at ht
    cases ht

/-- Settles O38: what a transaction does to ERR is `effect_err_cases`. -/
theorem errFlagsAreSticky : Obligations.ErrFlagsAreSticky := by
  refine ⟨fun s t b h hs ht => ?_, fun s t b h hb hs => ?_, rfl⟩
  · obtain ⟨-, rfl⟩ | ⟨x, rest, hp, ⟨hr, -⟩ | ⟨i, hi, hrun, rfl⟩⟩ := step_input_cases h
    · rw [hs] at ht
      cases ht
    · exact ⟨x, rest, hp, .inl hr⟩
    · obtain ⟨d, rfl, hd⟩ := effect_err_cleared i (s.withInputs rest) b hi hs ht
      exact ⟨x, rest, hp, .inr ⟨d, hrun, hd⟩⟩
  · obtain ⟨-, rfl⟩ | ⟨x, rest, hp, ⟨-, rfl⟩ | ⟨i, -, -, rfl⟩⟩ := step_input_cases h
    · exact hs
    · rw [State.toReset_err, BitVec.getLsbD_zero]
    · exact effect_err_reserved i (s.withInputs rest) b hb hs

/-- Beside RESET, only FRAME_CLEAR and a FRAME_DATA write at its address change a frame byte (R21, D10). -/
theorem effect_changes_frame_byte (i : Instr) (s : State) (k : Nat) (hi : i ≠ .reset)
    (h : (effect i s).fb.read k ≠ s.fb.read k) :
    i = .frameClear ∨ ∃ d, i = .wrFrameData d ∧ s.appendAddress = some k := by
  obtain hf | hf | hf | ⟨hc, -⟩ | ⟨d, rfl, hf⟩ := effect_frame_cases i s
  · exact absurd (by rw [hf.fb]) h
  · exact absurd (by rw [hf.fb]) h
  · exact absurd (by rw [hf.fb]) h
  · exact .inl (hc.resolve_left hi)
  · refine .inr ⟨d, rfl, ?_⟩
    by_contra hk
    exact h (by rw [hf.fb, s.storeFrameByte_read d k hk])

/-- Settles O39: a step that changes the byte runs one of the transactions that can. -/
theorem onlyFramePortWritesBuffer : Obligations.OnlyFramePortWritesBuffer := by
  intro s t k h hne
  obtain ⟨x, rest, hp, hr | ⟨i, hi, hrun, hne⟩⟩ := step_changes (·.fb.read k) (fun _ _ => rfl) h hne
  · exact ⟨x, rest, hp, .inl hr⟩
  · obtain rfl | ⟨d, rfl, ha⟩ := effect_changes_frame_byte i _ k hi hne
    · exact ⟨x, rest, hp, .inr (.inl hrun)⟩
    · exact ⟨x, rest, hp, .inr (.inr ⟨d, hrun, ha⟩)⟩

/-- Beside RESET, only FRAME_CLEAR and FRAME_DATA writes change FRAME_LEN (R22). -/
theorem effect_changes_frameLen (i : Instr) (s : State) (hi : i ≠ .reset) (h : (effect i s).frameLen ≠ s.frameLen) :
    i = .frameClear ∨ ∃ d, i = .wrFrameData d := by
  obtain hf | hf | hf | ⟨hc, -⟩ | ⟨d, rfl, -⟩ := effect_frame_cases i s
  · exact absurd hf.frameLen h
  · exact absurd hf.frameLen h
  · exact absurd hf.frameLen h
  · exact .inl (hc.resolve_left hi)
  · exact .inr ⟨d, rfl⟩

/-- The state after FRAME_DATA writes of the bytes in order. -/
def State.feedAll : State → List Byte → State
  | s, [] => s
  | s, b :: bs => (effect (.wrFrameData b) s).feedAll bs

/-- FRAME_LEN counts the bytes fed, and saturates (R22). -/
theorem State.feedAll_frameLen (s : State) (bs : List Byte) :
    (s.feedAll bs).frameLen.toNat = min (s.frameLen.toNat + bs.length) 0xFFFF := by
  induction bs generalizing s with
  | nil =>
    have := s.frameLen.isLt
    simp only [State.feedAll, List.length_nil]
    omega
  | cons b bs ih =>
    have hlen : (effect (.wrFrameData b) s).frameLen = nextFrameLen s.frameLen := by simp [effect]
    rw [State.feedAll, ih, hlen, nextFrameLen_toNat, List.length_cons]
    omega

/-- A run of FEEDs feeds their bytes. -/
theorem runInputs_feeds (s : State) (bs : List Byte) (xs : List HostInput) :
    runInputs (assemble (bs.map .feed) ++ xs) s = runInputs xs (s.feedAll bs) := by
  induction bs generalizing s with
  | nil => rfl
  | cons b bs ih =>
    have hw : decodeWord (AsmLine.wr 0x103#9 b).word = .wrFrameData b := by
      simp [AsmLine.word, decodeFieldsOfWord]
    rw [State.feedAll, ← ih, ← hw]
    exact runInputs_transaction _ _ s

/-- FEEDs from an empty buffer leave their number in FRAME_LEN, saturated. -/
theorem runInputs_feeds_of_empty (s : State) (bs : List Byte) (h : s.frameLen = 0x0000#16) :
    ∃ t, runInputs (assemble (bs.map .feed)) s = .next t ∧ t.frameLen.toNat = min bs.length 0xFFFF := by
  have hrun := runInputs_feeds s bs []
  rw [List.append_nil] at hrun
  refine ⟨_, hrun, ?_⟩
  rw [State.withInputs_frameLen, State.feedAll_frameLen, h]
  simp

/-- Settles O40: both starts empty the buffer, and each FEED counts once. -/
theorem frameLenCountsWrites : Obligations.FrameLenCountsWrites := by
  refine ⟨fun s bs => ?_, fun s bs => runInputs_feeds_of_empty s.toReset bs rfl, fun s t h hne => ?_, rfl⟩
  · have hclear : runInputs (assemble (.command .frameClear :: bs.map .feed)) s =
        runInputs (assemble (bs.map .feed)) s.clearFrame := runInputs_transaction _ _ s
    rw [hclear]
    exact runInputs_feeds_of_empty s.clearFrame bs rfl
  · obtain ⟨x, rest, hp, hr | ⟨i, hi, hrun, hne⟩⟩ := step_changes (·.frameLen) (fun _ _ => rfl) h hne
    · exact ⟨x, rest, hp, .inl hr⟩
    · obtain rfl | ⟨d, rfl⟩ := effect_changes_frameLen i _ hi hne
      · exact ⟨x, rest, hp, .inr (.inl hrun)⟩
      · exact ⟨x, rest, hp, .inr (.inr ⟨d, hrun⟩)⟩

/-- Beside RESET, only CRC_INIT and CRC_DATA writes change CRC_ACC (R23). -/
theorem effect_changes_crcAcc (i : Instr) (s : State) (hi : i ≠ .reset) (h : (effect i s).crcAcc ≠ s.crcAcc) :
    i = .crcInit ∨ ∃ d, i = .wrCrcData d := by
  cases i with
  | reset => exact absurd rfl hi
  | crcInit => exact .inl rfl
  | wrCrcData d => exact .inr ⟨d, rfl⟩
  | validate => exact absurd s.runValidation_crcAcc h
  | decode => exact absurd s.runDecode_crcAcc h
  | wrFrameData d => exact absurd (s.storeFrameByte_crcAcc d) h
  | project =>
    obtain ⟨z, hz⟩ | hz := s.runProject_cases
    all_goals exact absurd (by rw [effect, hz]; rfl) h
  | process =>
    obtain hz | ⟨d, hz⟩ := effect_process_cases s
    all_goals exact absurd (by rw [hz]; exact s.runDecode_crcAcc) h
  | _ => exact absurd rfl h

/-- Settles O41: a step that changes CRC_ACC runs one of the transactions that can. -/
theorem onlyChecksumPortWritesAccumulator : Obligations.OnlyChecksumPortWritesAccumulator := by
  intro s t h hne
  obtain ⟨x, rest, hp, hr | ⟨i, hi, hrun, hne⟩⟩ := step_changes (·.crcAcc) (fun _ _ => rfl) h hne
  · exact ⟨x, rest, hp, .inl hr⟩
  · obtain rfl | ⟨d, rfl⟩ := effect_changes_crcAcc i _ hi hne
    · exact ⟨x, rest, hp, .inr (.inl hrun)⟩
    · exact ⟨x, rest, hp, .inr (.inr ⟨d, hrun⟩)⟩

end Sys2Proof.Machine

/-! ### The rejected opcode (R32, R84, R274) -/

namespace Sys2Proof

/-- The opcode of a reserved row. -/
def reservedOpcode : Instr → Option Byte
  | .cmdRsvd08_0F d => some d
  | .cmdRsvd10_1F d => some d
  | .cmdRsvd20_3F d => some d
  | .cmdRsvd40_7F d => some d
  | .cmdRsvd80_FF d => some d
  | _ => none

/-- The command map has a reserved row for the opcodes from 0x08 on, and a command for each below (R83, R84). -/
theorem reservedOpcode_decodeCommand (d : Byte) :
    reservedOpcode (decodeCommand d) = if 0x08 ≤ d.toNat then some d else none := by
  revert d
  decide +kernel

/-- No row of a non-writable address has a reserved opcode. -/
theorem reservedOpcode_decodeReadOnlyWrite (a : Addr) (d : Byte) : reservedOpcode (decodeReadOnlyWrite a d) = none := by
  unfold decodeReadOnlyWrite
  split_ifs <;> rfl

/-- The words of a reserved opcode are the writes of 0x08 and above to CMD. -/
theorem reservedOpcode_decodeWord_iff (w : TxWord) (d : Byte) :
    reservedOpcode (decodeWord w) = some d ↔ w = packWord true 0x100#9 d ∧ 0x08 ≤ d.toNat := by
  constructor
  · rw [← packWord_fields w, decodeWord_packWord]
    unfold decodeFieldsOfWord
    split_ifs with hr ha
    · nofun
    · rw [reservedOpcode_decodeCommand, Bool.not_eq_false _ |>.mp hr, ha]
      split_ifs with hd
      · rintro ⟨⟩
        exact ⟨rfl, hd⟩
      · nofun
    · nofun
    · nofun
    · nofun
    · rw [reservedOpcode_decodeReadOnlyWrite]
      nofun
  · rintro ⟨rfl, hd⟩
    have hcmd : decodeWord (packWord true 0x100#9 d) = decodeCommand d := by simp [decodeFieldsOfWord]
    rw [hcmd, reservedOpcode_decodeCommand, if_pos hd]

end Sys2Proof

namespace Sys2Proof.Machine

open Sys2Proof.Claims

/-- ERR_OPC takes the opcode of a reserved row, and no other transaction but RESET writes it (R32). -/
theorem effect_errOpc (i : Instr) (s : State) (hi : i ≠ .reset) :
    (effect i s).errOpc = (reservedOpcode i).getD s.errOpc := by
  cases i with
  | reset => exact absurd rfl hi
  | validate => exact s.runValidation_errOpc
  | decode => exact s.runDecode_errOpc
  | wrFrameData d => exact s.storeFrameByte_errOpc d
  | project =>
    obtain ⟨z, hz⟩ | hz := s.runProject_cases
    all_goals rw [effect, hz]; rfl
  | process =>
    obtain hz | ⟨d, hz⟩ := effect_process_cases s
    all_goals rw [hz]; exact s.runDecode_errOpc
  | _ => rfl

/-- An input runs a reserved row exactly if it writes the row's opcode to CMD. -/
theorem runs_reservedOpcode_iff {x : HostInput} {i : Instr} (h : Runs x i) (d : Byte) :
    reservedOpcode i = some d ↔ x = writeInput 0x100#9 d ∧ 0x08 ≤ d.toNat := by
  obtain ⟨w, rfl, rfl⟩ := h
  rw [reservedOpcode_decodeWord_iff, writeInput, HostInput.transaction.injEq]

/-- A write of a reserved opcode to CMD is no reset. -/
theorem not_resets_writeInput (d : Byte) (hd : 0x08 ≤ d.toNat) : ¬ Resets (writeInput 0x100#9 d) := by
  have hrun : Runs (writeInput 0x100#9 d) (decodeWord (packWord true 0x100#9 d)) := ⟨_, rfl, rfl⟩
  refine not_resets_of_runs hrun fun hreset => ?_
  have hop := (runs_reservedOpcode_iff hrun d).mpr ⟨rfl, hd⟩
  rw [hreset] at hop
  cases hop

/-- Settles O42: the step resets, or runs an instruction whose reserved opcode `effect_errOpc` records. -/
theorem errOpcHoldsLastReservedOpcode : Obligations.ErrOpcHoldsLastReservedOpcode := by
  refine ⟨fun s t x rest hp h => ?_, rfl⟩
  obtain ⟨hnil, -⟩ | ⟨y, rest', hp', hstep⟩ := step_input_cases h
  · rw [hp] at hnil
    cases hnil
  obtain ⟨rfl, rfl⟩ := List.cons.inj (hp.symm.trans hp')
  obtain ⟨hr, rfl⟩ | ⟨i, hi, hrun, rfl⟩ := hstep
  · refine ⟨?_, fun _ => rfl, fun _ hnot => absurd hr hnot⟩
    rintro d hd rfl
    exact absurd hr (not_resets_writeInput d hd)
  · rw [effect_errOpc i _ hi]
    refine ⟨fun d hd hx => ?_, fun hr => absurd hr (not_resets_of_runs hrun hi), fun hnot _ => ?_⟩
    · rw [(runs_reservedOpcode_iff hrun d).mpr ⟨hx, hd⟩, Option.getD_some]
    · have hnone : reservedOpcode i = none := Option.eq_none_iff_forall_ne_some.mpr fun d hop =>
        have ⟨hx, hd⟩ := (runs_reservedOpcode_iff hrun d).mp hop
        hnot d hd hx
      rw [hnone, Option.getD_none, State.withInputs_errOpc]

/-! ### The summary and the output stream (R29, R33, R38 item 5) -/

/-- Settles O43: a step holds or resets the engine, which keeps OUT, or its transaction keeps OUT or publishes. -/
theorem outputIsAppendOnly : Obligations.OutputIsAppendOnly := by
  refine ⟨fun s t h => ?_, fun s o a => rfl⟩
  obtain ⟨-, rfl⟩ | ⟨x, rest, -, ⟨-, rfl⟩ | ⟨i, hi, -, rfl⟩⟩ := step_input_cases h
  · exact .inl rfl
  · exact .inl rfl
  · obtain hk | ⟨d, hd⟩ := effect_output_cases i (s.withInputs rest) hi
    · exact .inl hk.out
    · exact .inr ⟨_, hd.sum, hd.sumSeq, hd.out⟩

/-- From `s` to `t` the output only grew, and the summary is absent exactly if it was and nothing was emitted. -/
structure OutputSince (s t : State) : Prop where
  grows : s.out <+: t.out
  sum_none_iff : t.sum = none ↔ s.sum = none ∧ t.out = s.out

theorem OutputSince.refl (s : State) : OutputSince s s := ⟨List.prefix_rfl, by simp⟩

theorem OutputSince.trans {s t u : State} (h : OutputSince s t) (h' : OutputSince t u) : OutputSince s u where
  grows := h.grows.trans h'.grows
  sum_none_iff := by
    rw [h'.sum_none_iff, h.sum_none_iff, and_assoc]
    refine and_congr_right fun _ => ⟨fun ⟨hts, hut⟩ => hut.trans hts, fun hus => ?_⟩
    have hts : t.out = s.out := (h.grows.eq_of_length_le (hus ▸ h'.grows.length_le)).symm
    exact ⟨hts, hus.trans hts.symm⟩

/-- A transaction other than RESET keeps the summary's presence in step with the output. -/
theorem effect_outputSince (i : Instr) (s : State) (hi : i ≠ .reset) : OutputSince s (effect i s) := by
  refine ⟨effect_out_grows i s, ?_⟩
  obtain hk | ⟨d, hd⟩ := effect_output_cases i s hi
  · simp [hk.sum, hk.out]
  · simp [hd.sum, hd.out]

/-- Settles O44: a reset drops the summary, and any other transaction keeps it in step with the output. -/
theorem summaryPresentOnceProjected : Obligations.SummaryPresentOnceProjected := by
  intro s t h
  obtain ⟨hnil, rfl⟩ | ⟨x, rest, hp, ⟨hr, rfl⟩ | ⟨i, hi, hrun, rfl⟩⟩ := step_input_cases h
  · simp [hnil]
  · exact iff_of_true rfl (.inl ⟨x, rest, hp, hr⟩)
  · have hno : ¬ ∃ y rest, s.pending = y :: rest ∧ Resets y := by
      rintro ⟨y, rest', hp', hr⟩
      obtain ⟨rfl, -⟩ := List.cons.inj (hp.symm.trans hp')
      exact not_resets_of_runs hrun hi hr
    rw [or_iff_right hno]
    exact (effect_outputSince i (s.withInputs rest) hi).sum_none_iff

/-! ### The decoded frame in the frame window (R38 item 1, D41) -/

/-- The reserved bytes of module `i` are those from 32 + 16*i on (R95, R207). -/
theorem decodeFields_module_reserved (m : Memory) (cv : Bool) (i k : Nat) (hi : i < 7) (hk : k < 8) :
    (decodeFields m cv).powerModules[i].reserved[k] = m.read (32 + 16 * i + k) := by
  have hb : moduleOffset i + 8 = 32 + 16 * i := by
    simp only [moduleOffset, Config.moduleBase, Config.moduleStride]
    omega
  simp [decodeFields, decodeModule, hb]

/-- Settles O48: the decoded frame is that of the buffer, whose bytes the window shows. -/
theorem decodedViewMatchesFrameWindow : Obligations.DecodedViewMatchesFrameWindow := by
  intro s d hinv hd
  obtain ⟨-, v, hv, -, rfl⟩ := hinv.decodedViewCurrent d hd
  have window : ∀ a b, a ≤ 0x0FF → b = s.fb.read a → Reads8 s a b := fun a b ha hb => hb ▸ readReg_frame s a ha
  refine ⟨fun k h => window _ _ (by omega) ?_, fun k h => window _ _ (by omega) ?_,
    fun i k hi hk => window _ _ (by omega) (decodeFields_module_reserved _ _ i k hi hk),
    fun k h => ⟨window _ _ (by omega) ?_, window _ _ (by omega) ?_⟩, fun k h => window _ _ (by omega) ?_,
    fun k h => window _ _ (by omega) ?_, ?_⟩
  · simp [decodeFields]
  · simp [decodeFields]
  · simp [decodeFields, decodeCharging]
  · simp [decodeFields, decodeCharging]
  · simp [decodeFields]
  · simp [decodeFields]
  · rw [statusByte_getLsbD s 1 (by decide)]
    simp [State.crcValid, hv, decodeFields]

/-! ### The invariants in the states reached from reset (R38) -/

/-- A resetting input resets, and the run goes on. -/
theorem runInputs_of_resets {x : HostInput} (hx : Resets x) (xs : List HostInput) (s : State) :
    runInputs (x :: xs) s = runInputs xs s.toReset := by
  obtain rfl | ⟨w, rfl, hw⟩ := hx
  · exact runInputs_reset xs s
  · rw [runInputs_transaction, hw, effect]

/-- A run that completes starts with a reset or with an instruction other than RESET. -/
theorem runInputs_cons_cases {x : HostInput} {xs : List HostInput} {s t : State}
    (h : runInputs (x :: xs) s = .next t) :
    (Resets x ∧ runInputs xs s.toReset = .next t) ∨
      ∃ i, i ≠ .reset ∧ Runs x i ∧ runInputs xs (effect i s) = .next t := by
  by_cases hx : Resets x
  · exact .inl ⟨hx, by rwa [runInputs_of_resets hx] at h⟩
  · cases x with
    | transaction w =>
      rw [runInputs_transaction] at h
      exact .inr ⟨_, fun hw => hx (.inr ⟨w, rfl, hw⟩), ⟨w, rfl, rfl⟩, h⟩
    | reset => exact absurd (.inl rfl) hx
    | resetDuring w => cases h

/-- A run of no inputs only empties the host port. -/
theorem runInputs_nil_eq {s t : State} (h : runInputs [] s = .next t) : t = s.withInputs [] :=
  (Host.Outcome.next.inj h).symm

/-- A run keeps the invariant. -/
theorem runInputs_inv {xs : List HostInput} {s t : State} (hinv : Inv s) (h : runInputs xs s = .next t) : Inv t := by
  induction xs generalizing s with
  | nil =>
    rw [runInputs_nil_eq h]
    exact hinv.withInputs []
  | cons x xs ih =>
    obtain ⟨-, h⟩ | ⟨i, -, -, h⟩ := runInputs_cons_cases h
    · exact ih (effect_inv .reset s hinv) h
    · exact ih (effect_inv i s hinv) h

/-- A run without a reset keeps the summary's presence in step with the output. -/
theorem runInputs_outputSince {xs : List HostInput} {s t : State} (hxs : ∀ x ∈ xs, ¬ Resets x)
    (h : runInputs xs s = .next t) : OutputSince s t := by
  induction xs generalizing s with
  | nil =>
    obtain ⟨hg, hs⟩ := OutputSince.refl s
    rw [runInputs_nil_eq h]
    exact ⟨hg, hs⟩
  | cons x xs ih =>
    obtain ⟨hx, -⟩ | ⟨i, hi, -, h⟩ := runInputs_cons_cases h
    · exact absurd hx (hxs x (.head _))
    · exact (effect_outputSince i s hi).trans (ih (fun y hy => hxs y (.tail _ hy)) h)

/-- Settles O49: the buffer is empty and has no results, ERR is zero and no event is counted. -/
theorem invariantHoldsAtReset : Obligations.InvariantHoldsAtReset := by
  obtain ⟨hwf, hdf, hvr, hz⟩ : FrameInv State.reset := .of_no_results rfl rfl Memory.wf_nil fun _ _ _ => rfl
  exact ⟨hwf, hdf, hvr, hz, rfl, rfl⟩

/-- Settles O53: a run keeps the invariant; item 5 is `runInputs_outputSince` from the start, or from the last reset. -/
theorem reachableStatesKeepInvariants : Obligations.ReachableStatesKeepInvariants := by
  intro xs t h
  obtain ⟨-, hdf, hvr, hz, he, -⟩ := runInputs_inv invariantHoldsAtReset h
  refine ⟨hdf, hvr, hz, he, fun hxs => ?_, ?_⟩
  · rw [(runInputs_outputSince hxs h).sum_none_iff]
    exact and_iff_right rfl
  · rintro pre post x u rfl hx hpost hu
    rw [runInputs_append pre _ _ u hu, runInputs_of_resets hx] at h
    rw [(runInputs_outputSince hpost h).sum_none_iff]
    exact and_iff_right rfl

/-! ### The STATUS bits (R35) -/

/-- Settles O32: bit by bit, from the byte's own bits. -/
theorem statusBits : Obligations.StatusBits := by
  refine ⟨fun s => ?_, rfl, fun s d => rfl⟩
  have hlen : s.frameLen.toNat = 256 ↔ s.frameLen = 256#16 := BitVec.toNat_inj (y := 256#16)
  refine ⟨?_, ?_, ?_, ?_, ?_, ?_, ?_, ?_, rfl⟩
  all_goals rw [statusByte_getLsbD s _ (by decide)]
  · rcases hv : s.vr with _ | v <;> simp [State.lenOk, hv]
  · rcases hv : s.vr with _ | v <;> simp [State.crcValid, hv]
  · simp [Option.isSome_iff_exists]
  · simp [Option.isSome_iff_exists]
  · simp [Option.isSome_iff_exists]
  · simp [hlen]
  · simp
  · simp

end Sys2Proof.Machine

/-! The statements of spec/20_memory.md: the byte each address reads as (R51 to R53), the writes that may be repeated (R56),
and what a step takes from the host (R57, R62). -/

namespace Sys2Proof.Machine

open Sys2Proof.Claims

/-! ### Registers wider than a byte (R53) -/

/-- A 16-bit register reads as its bytes in rising order. -/
theorem reads16_of_bytes {s : State} {a : Nat} {v : U16} (h0 : Reads8 s a (byteOf v 0))
    (h1 : Reads8 s (a + 1) (byteOf v 1)) : Reads16 s a v := by
  rw [Reads16, h0, h1, byteOf_append16]

/-- So does a 32-bit register. -/
theorem reads32_of_bytes {s : State} {a : Nat} {v : U32} (h0 : Reads8 s a (byteOf v 0))
    (h1 : Reads8 s (a + 1) (byteOf v 1)) (h2 : Reads8 s (a + 2) (byteOf v 2)) (h3 : Reads8 s (a + 3) (byteOf v 3)) :
    Reads32 s a v := by
  rw [Reads32, h0, h1, h2, h3, byteOf_append32]

/-! ### The system registers (R51, R52) -/

/-- The frame window and the registers below the results. -/
theorem systemRegisters (s : State) : SystemRegisters s := by
  have computed : Reads16 s 0x10A s.valComputed := reads16_of_bytes rfl rfl
  have received : Reads16 s 0x10C s.valReceived := reads16_of_bytes rfl rfl
  refine ⟨readReg_frame s, rfl, rfl, reads16_of_bytes rfl rfl, reads16_of_bytes rfl rfl, fun v hv => ?_, fun hv => ?_,
    rfl, reads16_of_bytes rfl rfl⟩
  all_goals simpa only [State.valComputed, State.valReceived, hv] using And.intro computed received

/-! ### The DEC_* window (R51, R52) -/

/-- The window's gap after DEC_BITMAP. -/
theorem decReg_after_bitmap (d : DecodedFrame) (a : Nat) (h1 : 0x121 ≤ a) (h2 : a ≤ 0x12F) : decReg d a = 0x00#8 := by
  simp (disch := omega) only [decReg, if_neg, if_pos]

/-- DEC_MOD[i], byte by byte. -/
theorem decReg_module (d : DecodedFrame) (i k : Nat) (hi : i < 7) (hk : k < 8) :
    decReg d (0x130 + 8 * i + k) = moduleReg d.powerModules[i] k := by
  have hdiv : (0x130 + 8 * i + k - 0x130) / 8 = i := by omega
  have hmod : (0x130 + 8 * i + k - 0x130) % 8 = k := by omega
  simp (disch := omega) only [decReg, if_neg, if_pos, hdiv, hmod, Vector.getElem?_eq_getElem hi]

/-- The window's gap after the module records. -/
theorem decReg_after_modules (d : DecodedFrame) (a : Nat) (h1 : 0x168 ≤ a) (h2 : a ≤ 0x16F) : decReg d a = 0x00#8 := by
  simp (disch := omega) only [decReg, if_neg, if_pos]

/-- DEC_CHG, byte by byte. -/
theorem decReg_charging (d : DecodedFrame) (a : Nat) (h : 0x170 ≤ a) : decReg d a = chargingReg d.chargingInfo a := by
  simp (disch := omega) only [decReg, if_neg]

/-- The window shows the decoded frame. -/
theorem readReg_dec_of_some {s : State} {d : DecodedFrame} (hd : s.df = some d) (a : Nat) (h1 : 0x120 ≤ a)
    (h2 : a ≤ 0x18F) : readReg s (BitVec.ofNat 9 a) = decReg d a := by
  simp only [readReg_dec s a h1 h2, State.decByte, hd]

/-- Without a decoded frame the window is zero. -/
theorem readsZero_dec_of_none {s : State} (hd : s.df = none) : ReadsZero s 0x120 0x18F := by
  intro a h1 h2
  simp only [Reads8, readReg_dec s a h1 h2, State.decByte, hd]

/-- An address that no decoded frame has a byte for reads as zero. -/
theorem reads8_dec_zero (s : State) (a : Nat) (h1 : 0x120 ≤ a) (h2 : a ≤ 0x18F) (h : ∀ d, decReg d a = 0x00#8) :
    Reads8 s a 0x00#8 := by
  rcases hd : s.df with _ | d
  · exact readsZero_dec_of_none hd a h1 h2
  · exact (readReg_dec_of_some hd a h1 h2).trans (h d)

/-- The registers of module `i`. -/
theorem moduleRegisters_of_some {s : State} {d : DecodedFrame} (hd : s.df = some d) (i : Nat) (hi : i < 7) :
    ModuleRegisters s i d.powerModules[i] := by
  have byte (k : Nat) (hk : k < 8) (a : Nat) (ha : a = 0x130 + 8 * i + k) :
      Reads8 s a (moduleReg d.powerModules[i] k) := by
    subst ha
    exact (readReg_dec_of_some hd _ (by omega) (by omega)).trans (decReg_module d i k hi hk)
  refine ⟨byte 0 ?_ _ ?_, byte 1 ?_ _ ?_, reads16_of_bytes (byte 2 ?_ _ ?_) (byte 3 ?_ _ ?_),
    reads16_of_bytes (byte 4 ?_ _ ?_) (byte 5 ?_ _ ?_), reads16_of_bytes (byte 6 ?_ _ ?_) (byte 7 ?_ _ ?_)⟩
  all_goals omega

/-- A DEC_CHG register. -/
theorem reads8_charging {s : State} {d : DecodedFrame} (hd : s.df = some d) {a : Nat}
    (h : 0x170 ≤ a ∧ a ≤ 0x18F := by decide) : Reads8 s a (chargingReg d.chargingInfo a) :=
  (readReg_dec_of_some hd a (by omega) h.2).trans (decReg_charging d a h.1)

/-- The registers of the charging record. -/
theorem chargingRegisters_of_some {s : State} {d : DecodedFrame} (hd : s.df = some d) :
    ChargingRegisters s d.chargingInfo :=
  have byte {a : Nat} (h : 0x170 ≤ a ∧ a ≤ 0x18F := by decide) := reads8_charging hd h
  ⟨byte, byte, byte, byte, byte, byte, byte, byte, byte, byte, byte,
    reads32_of_bytes byte byte byte byte, reads32_of_bytes byte byte byte byte,
    reads16_of_bytes byte byte, reads16_of_bytes byte byte, reads16_of_bytes byte byte, reads16_of_bytes byte byte,
    reads32_of_bytes byte byte byte byte⟩

/-- The DEC_* registers, with a decoded frame and without. -/
theorem decodedRegisters (s : State) : DecodedRegisters s :=
  ⟨fun _ hd => ⟨readReg_dec_of_some hd 0x120 (by decide) (by decide), moduleRegisters_of_some hd,
    chargingRegisters_of_some hd⟩, readsZero_dec_of_none⟩

/-! ### The SUM_* window (R51, R52) -/

/-- SUM_MOD[i], byte by byte. -/
theorem sumReg_module (z : TelemetrySummary) (i k : Nat) (hi : i < 7) (hk : k < 6) :
    sumReg z (0x194 + 6 * i + k) = summaryModuleReg z.modules[i] k := by
  have hdiv : (0x194 + 6 * i + k - 0x194) / 6 = i := by omega
  have hmod : (0x194 + 6 * i + k - 0x194) % 6 = k := by omega
  simp (disch := omega) only [sumReg, if_neg, hdiv, hmod, Vector.getElem?_eq_getElem hi]

/-- The window shows the summary. -/
theorem readReg_sum_of_some {s : State} {z : TelemetrySummary} (hz : s.sum = some z) (a : Nat) (h1 : 0x190 ≤ a)
    (h2 : a ≤ 0x1BD) : readReg s (BitVec.ofNat 9 a) = sumReg z a := by
  simp only [readReg_sum s a h1 h2, State.sumByte, hz]

/-- Without a summary the window is zero. -/
theorem readsZero_sum_of_none {s : State} (hz : s.sum = none) : ReadsZero s 0x190 0x1BD := by
  intro a h1 h2
  simp only [Reads8, readReg_sum s a h1 h2, State.sumByte, hz]

/-- The SUM_* registers, with a summary and without, and with and without its state of health. -/
theorem summaryRegisters (s : State) : SummaryRegisters s := by
  refine ⟨fun z hz => ?_, readsZero_sum_of_none⟩
  have window (a : Nat) (h : 0x190 ≤ a ∧ a ≤ 0x1BD) : Reads8 s a (sumReg z a) := readReg_sum_of_some hz a h.1 h.2
  have soh := window 0x191 (by decide)
  have sohValid := window 0x192 (by decide)
  refine ⟨window 0x190 (by decide), fun h hh => ?_, fun hh => ?_, window 0x193 (by decide), fun i hi => ?_⟩
  · simpa [sumReg, hh, flagBit] using And.intro soh sohValid
  · simpa [sumReg, hh, flagBit] using And.intro soh sohValid
  · have byte (k : Nat) (hk : k < 6) (a : Nat) (ha : a = 0x194 + 6 * i + k) :
        Reads8 s a (summaryModuleReg z.modules[i] k) := by
      subst ha
      exact (window _ (by omega)).trans (sumReg_module z i k hi hk)
    refine ⟨reads16_of_bytes (byte 0 ?_ _ ?_) (byte 1 ?_ _ ?_), reads16_of_bytes (byte 2 ?_ _ ?_) (byte 3 ?_ _ ?_),
      reads16_of_bytes (byte 4 ?_ _ ?_) (byte 5 ?_ _ ?_)⟩
    all_goals omega

/-! ### The write-only ports and the unmapped addresses (R51, R52) -/

/-- Above SUM_SEQ, an address outside both windows reads as zero. -/
theorem reads8_zero_of_no_window (s : State) (a : Nat) (h : (0x112 ≤ a ∧ a ≤ 0x11F) ∨ (0x1BE ≤ a ∧ a ≤ 0x1FF)) :
    Reads8 s a 0x00#8 := by
  rw [Reads8, readReg_results s a (by omega) (by omega), if_neg (by omega), if_neg (by omega)]

/-- They read as zero in every state. -/
theorem unmappedRegisters (s : State) : UnmappedRegisters s := by
  refine ⟨rfl, rfl, fun a h1 h2 => ?_, rfl, fun a h1 h2 => ?_, fun a h1 h2 => ?_, fun a h1 h2 => ?_, ?_,
    fun a h1 h2 => ?_⟩
  · obtain rfl | rfl : a = 0x106 ∨ a = 0x107 := by omega
    · rfl
    · rfl
  · exact reads8_zero_of_no_window s a (.inl ⟨h1, h2⟩)
  · exact reads8_dec_zero s a (by omega) (by omega) fun d => decReg_after_bitmap d a h1 h2
  · exact reads8_dec_zero s a (by omega) (by omega) fun d => decReg_after_modules d a h1 h2
  · exact reads8_dec_zero s 0x17B (by decide) (by decide) fun d => decReg_charging d 0x17B (by decide)
  · exact reads8_zero_of_no_window s a (.inr ⟨h1, h2⟩)

/-- Settles O31: the four parts of the map. -/
theorem registerMapReads : Obligations.RegisterMapReads := fun s =>
  ⟨systemRegisters s, unmappedRegisters s, decodedRegisters s, summaryRegisters s⟩

/-! ### Writes that may be repeated (R56) -/

/-- A flag set twice is set once (R11). -/
@[simp] theorem State.seterr_seterr (s : State) (f : ErrFlag) : (s.seterr f).seterr f = s.seterr f := by
  simp [State.seterr, BitVec.or_assoc]

/-- A verdict's flag raised twice is raised once (R182). -/
@[simp] theorem State.flagVerdict_flagVerdict (s : State) (v : ValResult) :
    (s.flagVerdict v).flagVerdict v = s.flagVerdict v := by
  unfold State.flagVerdict
  split_ifs
  · exact s.seterr_seterr .lenErr
  · exact s.seterr_seterr .crcMismatch
  · rfl

/-- Raising a verdict's flag and recording a verdict commute: they touch ERR and VR. -/
theorem State.flagVerdict_setVr (s : State) (v w : ValResult) :
    (s.flagVerdict v).setVr w = (s.setVr w).flagVerdict v := by
  unfold State.flagVerdict
  split_ifs <;> rfl

/-- Raising a verdict's flag and recording a decoded frame commute: they touch ERR and DF. -/
theorem State.flagVerdict_setDf (s : State) (v : ValResult) (d : Option DecodedFrame) :
    (s.flagVerdict v).setDf d = (s.setDf d).flagVerdict v := by
  unfold State.flagVerdict
  split_ifs <;> rfl

/-- A second validation gives the same verdict: the first changed neither the buffer nor its length (R183). -/
@[simp] theorem State.runValidation_runValidation (s : State) : s.runValidation.runValidation = s.runValidation := by
  have hv : validate s.runValidation.fb s.runValidation.frameLen = validate s.fb s.frameLen := by simp
  calc s.runValidation.runValidation
      = (s.runValidation.setVr (validate s.fb s.frameLen)).flagVerdict (validate s.fb s.frameLen) := by
        rw [State.runValidation, hv]
    _ = s.runValidation := by
        rw [State.runValidation, State.flagVerdict_setVr, State.flagVerdict_flagVerdict]
        rfl

/-- A validation does not look at the decoded frame (R182). -/
theorem State.runValidation_setDf (s : State) (d : Option DecodedFrame) :
    (s.setDf d).runValidation = s.runValidation.setDf d :=
  (State.flagVerdict_setDf (s.setVr _) _ d).symm

/-- A second DECODE gives the same verdict and the same frame (R220). -/
@[simp] theorem State.runDecode_runDecode (s : State) : s.runDecode.runDecode = s.runDecode := by
  have hd : decodeFrame s.runDecode.fb s.runDecode.frameLen = decodeFrame s.fb s.frameLen := by simp
  rw [State.runDecode, hd, State.runDecode, State.runValidation_setDf, State.runValidation_runValidation]
  rfl

/-- Flags cleared twice are cleared once (R144). -/
@[simp] theorem State.clearErr_clearErr (s : State) (d : Byte) : (s.clearErr d).clearErr d = s.clearErr d := by
  simp [State.clearErr, clearFlags, BitVec.and_assoc]

/-- The instructions that do no more when they are repeated (R56). -/
theorem effect_effect (i : Instr) (s : State) (hproject : i ≠ .project) (hprocess : i ≠ .process)
    (hframe : ∀ d, i ≠ .wrFrameData d) (hcrc : ∀ d, i ≠ .wrCrcData d) (hrd : ∀ a d, i ≠ .rd a d) :
    effect i (effect i s) = effect i s := by
  cases i with
  | project => exact absurd rfl hproject
  | process => exact absurd rfl hprocess
  | wrFrameData d => exact absurd rfl (hframe d)
  | wrCrcData d => exact absurd rfl (hcrc d)
  | rd a d => exact absurd rfl (hrd a d)
  | validate => exact s.runValidation_runValidation
  | decode => exact s.runDecode_runDecode
  | wrErr d => exact s.clearErr_clearErr d
  | nop | crcInit | frameClear | reset => rfl
  | cmdRsvd08_0F d | cmdRsvd10_1F d | cmdRsvd20_3F d | cmdRsvd40_7F d | cmdRsvd80_FF d =>
    exact (s.setErrOpc d).seterr_seterr .illegalCmd
  | _ => exact s.seterr_seterr .addrErr

/-- PROJECT with a decoded frame publishes its summary (R255). -/
theorem effect_project_publishes (s : State) (d : DecodedFrame) (h : s.df = some d) :
    Publishes s (effect .project s) (project d) := by
  rw [effect, s.runProject_of_some d h]
  exact ⟨rfl, rfl, rfl⟩

/-- PROCESS with a complete frame publishes the summary of its decoded frame (R272). -/
theorem effect_process_publishes (s : State) (h : s.frameLen.toNat = 256) :
    ∃ d, Publishes s (effect .process s) (project d) := by
  obtain ⟨d, hd⟩ : ∃ d, s.runDecode.df = some d := ⟨_, s.runDecode_df.trans (decodeFrame_of_eq _ _ h)⟩
  rw [effect, if_pos h, s.runDecode.runProject_of_some d hd]
  exact ⟨d, rfl, by simp, by simp⟩

/-- Settles O46: `effect_effect` for the idempotent writes; the other two publish a summary each time. -/
theorem whichWritesAreIdempotent : Obligations.WhichWritesAreIdempotent := by
  refine ⟨fun i s t h hproject hprocess hframe hcrc hrd => ?_, fun s ⟨d, hd⟩ => ?_, fun s h => ?_⟩
  · obtain rfl := exec_next h
    rw [exec_eq_effect, effect_effect i s hproject hprocess hframe hcrc hrd]
  · have hp := effect_project_publishes s d hd
    exact ⟨_, _, exec_eq_effect _ _, hp.out, hp.sumSeq⟩
  · obtain ⟨d, hp⟩ := effect_process_publishes s h
    exact ⟨_, _, exec_eq_effect _ _, hp.out, hp.sumSeq⟩

/-! ### What a step takes from the host (R57, R62) -/

/-- Settles O33: each kind of oldest input selects its case of `step`. -/
theorem stepRunsOldestInput : Obligations.StepRunsOldestInput := fun _ _ =>
  ⟨fun _ => rfl, rfl, rfl, fun _ => rfl⟩

end Sys2Proof.Machine

/-! The statements of spec/30_encoding.md: the dispatch of a word on its fields (R80, R83, R85), the decoder and the
encoder as inverses, and the opcode table as a partition of the words (R86). -/

namespace Sys2Proof

open Sys2Proof.Claims

/-! ### The dispatch on the fields (R80) -/

@[simp] theorem inRange_iff {w : Nat} {lo hi : Nat} {v : BitVec w} :
    inRange lo hi v = true ↔ lo ≤ v.toNat ∧ v.toNat ≤ hi := by
  simp [inRange]

theorem notMem_writableAddresses_iff (a : Addr) :
    a ∉ writableAddresses ↔ a.toNat ≠ 0x100 ∧ a.toNat ≠ 0x102 ∧ a.toNat ≠ 0x103 ∧ a.toNat ≠ 0x106 := by
  simp [writableAddresses, ← BitVec.toNat_inj]

/-- A write to a non-writable address is dispatched to the WR_RO rows. -/
theorem decodeFieldsOfWord_of_readOnly {a : Addr} (ha : a ∉ writableAddresses) (d : Byte) :
    decodeFieldsOfWord true a d = decodeReadOnlyWrite a d := by
  obtain ⟨h0, h2, h3, h6⟩ : a ≠ 0x100#9 ∧ a ≠ 0x102#9 ∧ a ≠ 0x103#9 ∧ a ≠ 0x106#9 := by
    simpa [writableAddresses] using ha
  simp [decodeFieldsOfWord, h0, h2, h3, h6]

/-- A word with W = 1 is dispatched on its address and data. -/
theorem decodeWord_of_write (w : TxWord) (h : txWrite w = true) :
    decodeWord w = decodeFieldsOfWord true (txAddr w) (txData w) := by
  rw [decodeWord, h]

/-! ### The command map (R83, R84) -/

/-- From 0x08 on the command map is the choice among the five reserved ranges. -/
theorem decodeCommand_of_reserved (d : Byte) (h : 0x08 ≤ d.toNat) :
    decodeCommand d =
      if d.toNat ≤ 0x0F then .cmdRsvd08_0F d else if d.toNat ≤ 0x1F then .cmdRsvd10_1F d
      else if d.toNat ≤ 0x3F then .cmdRsvd20_3F d else if d.toNat ≤ 0x7F then .cmdRsvd40_7F d
      else .cmdRsvd80_FF d := by
  have hne (k : Byte) (hk : k.toNat < 0x08) : d ≠ k := fun hd => by
    rw [hd] at h
    omega
  simp [decodeCommand, hne]

theorem decodeCommand_mem_reservedRows (d : Byte) (h : 0x08 ≤ d.toNat) : decodeCommand d ∈ reservedRows d := by
  rw [decodeCommand_of_reserved d h]
  split_ifs <;> simp [reservedRows]

/-- The command map answers the reserved row whose range holds the opcode. -/
theorem decodeCommand_of_wellFormed {i : Instr} {d : Byte} (hrow : i ∈ reservedRows d) (hi : i.wellFormed = true) :
    decodeCommand d = i := by
  simp only [reservedRows, List.mem_cons, List.not_mem_nil, or_false] at hrow
  obtain rfl | rfl | rfl | rfl | rfl := hrow
  all_goals
    obtain ⟨hlo, hhi⟩ := inRange_iff.mp hi
    rw [decodeCommand_of_reserved d (by omega)]
  · rw [if_pos hhi]
  · rw [if_neg (by omega), if_pos hhi]
  · iterate 2 rw [if_neg (by omega)]
    rw [if_pos hhi]
  · iterate 3 rw [if_neg (by omega)]
    rw [if_pos hhi]
  · iterate 4 rw [if_neg (by omega)]

/-! ### The non-writable addresses (R85) -/

theorem decodeReadOnlyWrite_mem_readOnlyRows (a : Addr) (d : Byte) : decodeReadOnlyWrite a d ∈ readOnlyRows a d := by
  unfold decodeReadOnlyWrite
  repeat' split
  all_goals simp [readOnlyRows]

/-- The map of the non-writable addresses answers the row whose range holds the address. -/
theorem decodeReadOnlyWrite_of_wellFormed {i : Instr} {a : Addr} {d : Byte} (hrow : i ∈ readOnlyRows a d)
    (hi : i.wellFormed = true) (henc : encodeWord i = packWord true a d) :
    a ∉ writableAddresses ∧ decodeReadOnlyWrite a d = i := by
  have haddr := congrArg txAddr henc
  simp only [readOnlyRows, List.mem_cons, List.not_mem_nil, or_false] at hrow
  rw [notMem_writableAddresses_iff, decodeReadOnlyWrite]
  obtain rfl | rfl | rfl | rfl | rfl | rfl | rfl | rfl | rfl := hrow
  case inr.inl =>
    obtain rfl : 0x101#9 = a := by simpa [encodeWord] using haddr
    exact ⟨by decide, rfl⟩
  case inr.inr.inr.inl =>
    obtain rfl : 0x107#9 = a := by simpa [encodeWord] using haddr
    exact ⟨by decide, rfl⟩
  all_goals
    obtain ⟨hlo, hhi⟩ := inRange_iff.mp hi
    refine ⟨by omega, ?_⟩
  · rw [if_pos hhi]
  · iterate 2 rw [if_neg (by omega)]
    rw [if_pos hhi]
  · iterate 4 rw [if_neg (by omega)]
    rw [if_pos hhi]
  · iterate 5 rw [if_neg (by omega)]
    rw [if_pos hhi]
  · iterate 6 rw [if_neg (by omega)]
    rw [if_pos hhi]
  · iterate 7 rw [if_neg (by omega)]
    rw [if_pos hhi]
  · iterate 8 rw [if_neg (by omega)]

/-- The dispatch of a write on its address: each writable address has its own meaning, every other one a WR_RO row. -/
theorem decodeFieldsOfWord_of_write (a : Addr) (d : Byte) :
    (a = 0x100#9 → decodeFieldsOfWord true a d = decodeCommand d) ∧
    (a = 0x102#9 → decodeFieldsOfWord true a d = .wrErr d) ∧
    (a = 0x103#9 → decodeFieldsOfWord true a d = .wrFrameData d) ∧
    (a = 0x106#9 → decodeFieldsOfWord true a d = .wrCrcData d) ∧
    (a ∉ writableAddresses → decodeFieldsOfWord true a d ∈ readOnlyRows a d) := by
  refine ⟨?_, ?_, ?_, ?_, fun ha => ?_⟩
  iterate 4
    rintro rfl
    rfl
  rw [decodeFieldsOfWord_of_readOnly ha]
  exact decodeReadOnlyWrite_mem_readOnlyRows a d

/-! ### The decoder and the encoder are inverses -/

/-- It is enough that the dispatch on the packed fields answers the instruction. -/
theorem decodeWord_encodeWord_of_fields {i : Instr} {w : Bool} {a : Addr} {d : Byte}
    (henc : encodeWord i = packWord w a d) (hdec : decodeFieldsOfWord w a d = i) : decodeWord (encodeWord i) = i := by
  rw [henc, decodeWord_packWord, hdec]

/-- Settles O58, by the rows: a row with an address of its own and no range of D evaluates, and a row with a range is found
by the map that holds it. -/
theorem decodeOfEncode : Obligations.DecodeOfEncode := by
  intro i hi
  cases i with
  | nop | crcInit | frameClear | validate | decode | project | process | reset | wrErr d | wrFrameData d | wrCrcData d
  | wrRo101 d | wrRo107 d | rd a d => exact decodeWord_encodeWord_of_fields rfl rfl
  | cmdRsvd08_0F d | cmdRsvd10_1F d | cmdRsvd20_3F d | cmdRsvd40_7F d | cmdRsvd80_FF d =>
    exact decodeWord_encodeWord_of_fields rfl (decodeCommand_of_wellFormed (by simp [reservedRows]) hi)
  | wrRo000_0FF a d | wrRo104_105 a d | wrRo108_10F a d | wrRo110_11F a d | wrRo120_13F a d | wrRo140_17F a d
  | wrRo180_1FF a d =>
    obtain ⟨ha, hdec⟩ := decodeReadOnlyWrite_of_wellFormed (by simp [readOnlyRows]) hi rfl
    exact decodeWord_encodeWord_of_fields rfl ((decodeFieldsOfWord_of_readOnly ha d).trans hdec)

/-- The instruction is well formed and `t` is its encoding. -/
structure StandsFor (i : Instr) (t : TxWord) : Prop where
  wellFormed : i.wellFormed = true
  encodeWord_eq : encodeWord i = t

theorem decodeCommand_standsFor (d : Byte) : StandsFor (decodeCommand d) (packWord true 0x100#9 d) := by
  by_cases h : 0x08 ≤ d.toNat
  · rw [decodeCommand_of_reserved d h]
    have hd := d.isLt
    split_ifs
    all_goals exact ⟨inRange_iff.mpr (by omega), rfl⟩
  · obtain rfl | rfl | rfl | rfl | rfl | rfl | rfl | rfl : d = 0x00#8 ∨ d = 0x01#8 ∨ d = 0x02#8 ∨ d = 0x03#8 ∨
        d = 0x04#8 ∨ d = 0x05#8 ∨ d = 0x06#8 ∨ d = 0x07#8 := by bv_omega
    all_goals exact ⟨rfl, rfl⟩

theorem decodeReadOnlyWrite_standsFor {a : Addr} (ha : a ∉ writableAddresses) (d : Byte) :
    StandsFor (decodeReadOnlyWrite a d) (packWord true a d) := by
  obtain ⟨h0, h2, h3, h6⟩ := (notMem_writableAddresses_iff a).mp ha
  have hlt := a.isLt
  unfold decodeReadOnlyWrite
  repeat' split
  · exact ⟨inRange_iff.mpr (by omega), rfl⟩
  · obtain rfl : a = 0x101#9 := by bv_omega
    exact ⟨rfl, rfl⟩
  · exact ⟨inRange_iff.mpr (by omega), rfl⟩
  · obtain rfl : a = 0x107#9 := by bv_omega
    exact ⟨rfl, rfl⟩
  all_goals exact ⟨inRange_iff.mpr (by omega), rfl⟩

/-- Each branch of the dispatch answers the instruction that the fields are packed from. -/
theorem decodeFieldsOfWord_standsFor (w : Bool) (a : Addr) (d : Byte) :
    StandsFor (decodeFieldsOfWord w a d) (packWord w a d) := by
  cases w with
  | false => exact ⟨rfl, rfl⟩
  | true =>
    by_cases ha : a ∈ writableAddresses
    · simp only [writableAddresses, List.mem_cons, List.not_mem_nil, or_false] at ha
      obtain rfl | rfl | rfl | rfl := ha
      · exact decodeCommand_standsFor d
      all_goals exact ⟨rfl, rfl⟩
    · rw [decodeFieldsOfWord_of_readOnly ha]
      exact decodeReadOnlyWrite_standsFor ha d

theorem decodeWord_standsFor (w : TxWord) : StandsFor (decodeWord w) w := by
  have h := decodeFieldsOfWord_standsFor (txWrite w) (txAddr w) (txData w)
  rwa [packWord_fields] at h

/-- Settles O59, by the branches of the dispatch. -/
theorem encodeOfDecode : Obligations.EncodeOfDecode := fun w =>
  ⟨(decodeWord_standsFor w).wellFormed, (decodeWord_standsFor w).encodeWord_eq⟩

/-! ### The opcode table (R86) -/

/-- The instruction-by-instruction facts of `Laws.WordInTableRow`, for any instruction. -/
theorem Laws.WordInTableRow.all : ∀ i : Instr, Statement i
  | .nop => nop
  | .crcInit => crcInit
  | .frameClear => frameClear
  | .validate => validate
  | .decode => decode
  | .project => project
  | .process => process
  | .reset => reset
  | .cmdRsvd08_0F d => cmdRsvd08_0F d
  | .cmdRsvd10_1F d => cmdRsvd10_1F d
  | .cmdRsvd20_3F d => cmdRsvd20_3F d
  | .cmdRsvd40_7F d => cmdRsvd40_7F d
  | .cmdRsvd80_FF d => cmdRsvd80_FF d
  | .wrErr d => wrErr d
  | .wrFrameData d => wrFrameData d
  | .wrCrcData d => wrCrcData d
  | .wrRo000_0FF a d => wrRo000_0FF a d
  | .wrRo101 d => wrRo101 d
  | .wrRo104_105 a d => wrRo104_105 a d
  | .wrRo107 d => wrRo107 d
  | .wrRo108_10F a d => wrRo108_10F a d
  | .wrRo110_11F a d => wrRo110_11F a d
  | .wrRo120_13F a d => wrRo120_13F a d
  | .wrRo140_17F a d => wrRo140_17F a d
  | .wrRo180_1FF a d => wrRo180_1FF a d
  | .rd a d => rd a d

/-- The two rows ask for different values of a bit that both masks fix. -/
def TableRow.Conflicts (r r' : TableRow) : Prop := r.pattern &&& r'.mask ≠ r'.pattern &&& r.mask

/-- Rows that conflict share no word. -/
theorem TableRow.Conflicts.not_admits {r r' : TableRow} (hc : r.Conflicts r') {t : TxWord} (h : r.admits t = true) :
    r'.admits t = false := by
  refine Bool.eq_false_iff.mpr fun h' => hc ?_
  rw [← beq_iff_eq.mp h, ← beq_iff_eq.mp h', BitVec.and_assoc, BitVec.and_comm r.mask, ← BitVec.and_assoc]

/-- No two rows of the table share a word: a decoder needs no priority between them. -/
theorem opcodeTable_conflicts : opcodeTable.Pairwise TableRow.Conflicts := by
  unfold TableRow.Conflicts
  decide

/-- A row that admits the word is the only one. -/
theorem opcodeTable_filter_admits {r : TableRow} {t : TxWord} (hr : r ∈ opcodeTable) (h : r.admits t = true) :
    (opcodeTable.filter fun r => r.admits t) = [r] := by
  have hmem : r ∈ opcodeTable.filter fun r => r.admits t := List.mem_filter.mpr ⟨hr, h⟩
  have hadm : ∀ r' ∈ opcodeTable.filter fun r => r.admits t, r'.admits t = true := fun _ h' => (List.mem_filter.mp h').2
  have hpair := opcodeTable_conflicts.filter fun r => r.admits t
  generalize (opcodeTable.filter fun r => r.admits t) = rows at hmem hadm hpair ⊢
  match rows with
  | [r'] => rw [List.mem_singleton.mp hmem]
  | r' :: r'' :: _ =>
    have hc : r'.Conflicts r'' := List.rel_of_pairwise_cons hpair (by simp)
    have hno := hc.not_admits (hadm r' (by simp))
    rw [hadm r'' (by simp)] at hno
    cases hno

/-- Settles O57: the row of the decoded instruction admits the word, which is its encoding, and no other row does. -/
theorem tableRowsPartitionWords : Obligations.TableRowsPartitionWords := by
  intro w
  have hw := decodeWord_standsFor w
  obtain ⟨r, hr, hname, hadm⟩ := Laws.WordInTableRow.all (decodeWord w) hw.wellFormed
  rw [hw.encodeWord_eq] at hadm
  rw [opcodeTable_filter_admits hr hadm, List.map_singleton, hname]

/-! ### The dispatch of R80 and R83 -/

/-- Settles O54: the eight commands evaluate, and a higher byte is in a reserved range. -/
theorem commandOpcodeMap : Obligations.CommandOpcodeMap := by
  refine ⟨rfl, rfl, rfl, rfl, rfl, rfl, rfl, rfl, fun d hd => ?_⟩
  rw [decodeWord_packWord]
  exact decodeCommand_mem_reservedRows d hd

/-- Settles O55: a read by `decodeWord_of_read`, a write by `decodeFieldsOfWord_of_write`. -/
theorem dispatchByFields : Obligations.DispatchByFields := by
  intro w
  refine ⟨decodeWord_of_read w, fun hw => ?_⟩
  rw [decodeWord_of_write w hw]
  exact decodeFieldsOfWord_of_write _ _

/-- Settles O56, by evaluating the decoder on each word. -/
theorem sampleWordsDecode : Obligations.SampleWordsDecode :=
  ⟨rfl, rfl, rfl, rfl, rfl, rfl, rfl⟩

end Sys2Proof

namespace Sys2Proof.Machine

/-! ### Issuing a word (R80, R86) -/

/-- A number of a word is issued as that word. -/
theorem State.withFetchWord_toNat (s : State) (n : Nat) (t : TxWord) :
    s.withFetchWord n t.toNat = s.issueNext (.transaction t) := by
  rw [State.withFetchWord, if_pos t.isLt, BitVec.ofNat_toNat, BitVec.setWidth_eq]

/-- A step after issuing a word runs the decoded instruction. -/
theorem step_issueNext (s : State) (t : TxWord) : step (s.issueNext (.transaction t)) = exec (decodeWord t) s :=
  rfl

/-- Settles O34: the step runs what the issued word decodes to, which is the instruction by `decodeOfEncode`. -/
theorem issuedWordRunsInstruction : Obligations.IssuedWordRunsInstruction := by
  intro i s hi
  rw [State.withFetchWord_toNat, step_issueNext, decodeOfEncode i hi]

end Sys2Proof.Machine

/-! The statements of spec/40_host_access.md: the read (R140), the frame and ERR ports (R142 to R144) and the writes to
read-only and unmapped addresses (R145, R306). -/

namespace Sys2Proof.Machine

open Sys2Proof.Claims

/-! ### The frame port (R142, R143) -/

/-- Only a discarded byte sets a flag, FRAME_OVF (R142, R305). -/
theorem State.storeFrameByte_err (s : State) (d : Byte) :
    (s.storeFrameByte d).err = if s.appendAddress = none then s.err ||| 0x20#8 else s.err := by
  rcases ha : s.appendAddress with _ | a
  · rw [s.storeFrameByte_of_none d ha, if_pos rfl]
    rfl
  · rw [s.storeFrameByte_of_some d a ha, if_neg nofun]

/-- The stored byte reads back from a canonical buffer (R142). -/
theorem State.storeFrameByte_read_same (s : State) (d : Byte) (a : Nat) (ha : s.appendAddress = some a)
    (h : s.fb.wf) : (s.storeFrameByte d).fb.read a = d := by
  rw [s.storeFrameByte_of_some d a ha]
  exact (Memory.read_write s.fb a d a h.1).trans (if_pos rfl)

/-- The mask 0x0F selects bits 3:0. -/
theorem lowNibble_getLsbD : ∀ j, j < 8 → (0x0F#8).getLsbD j = decide (j < 4) := by decide

/-- Without results STATUS bits 3:0 are clear (R35). -/
theorem statusByte_low_of_no_results {s : State} (hvr : s.vr = none) (hdf : s.df = none) :
    statusByte s &&& 0x0F#8 = 0x00#8 := by
  apply BitVec.eq_of_getLsbD_eq
  intro j hj
  rw [BitVec.getLsbD_and, lowNibble_getLsbD j hj, BitVec.getLsbD_zero]
  by_cases hlow : j < 4
  · rw [statusByte_getLsbD s j hj, State.lenOk, State.crcValid, hvr, hdf]
    obtain rfl | rfl | rfl | rfl : j = 0 ∨ j = 1 ∨ j = 2 ∨ j = 3 := by omega
    all_goals simp
  · rw [decide_eq_false hlow, Bool.and_false]

/-- Settles O27: the buffer and ERR by whether there is room, the length by `nextFrameLen`, and the frame of
`storeFrameByte` and `countFrameByte` for the rest. -/
theorem frameDataResult : Obligations.FrameDataResult := by
  intro d s
  refine ⟨decodeWord_packWord _ _ _, _, exec_eq_effect _ _, rfl, fun a ha => ⟨?_, ?_, fun k hk => ?_⟩,
    fun ha => ⟨?_, fun k => ?_⟩, ?_, rfl, rfl, statusByte_low_of_no_results rfl rfl, ?_⟩
  · simp [effect, State.storeFrameByte_err, ha]
  · exact s.storeFrameByte_read_same d a ha
  · exact s.storeFrameByte_read d k fun h => hk (Option.some.inj (h.symm.trans ha))
  · simp [effect, State.storeFrameByte_err, ha]
  · exact s.storeFrameByte_read d k (by simp [ha])
  · simp [effect, nextFrameLen]
  · simp [effect]

/-! ### The writes to read-only and unmapped addresses (R145, R306) -/

/-- Each of the nine rows refuses the write. -/
theorem effect_of_mem_readOnlyRows {i : Instr} {a : Addr} {d : Byte} (h : i ∈ readOnlyRows a d) (s : State) :
    effect i s = s.refuseWrite := by
  simp only [readOnlyRows, List.mem_cons, List.not_mem_nil, or_false] at h
  obtain rfl | rfl | rfl | rfl | rfl | rfl | rfl | rfl | rfl := h
  all_goals rfl

/-- A refused write sets ERR bit 4 and nothing else. -/
theorem State.refuseWrite_eq (s : State) : s.refuseWrite = { s with err := s.err ||| 0x10#8 } := rfl

/-- A write word to a non-writable address decodes to one of the nine rows. -/
theorem decodeWord_mem_readOnlyRows {a : Addr} (ha : a ∉ writableAddresses) (d : Byte) :
    decodeWord (packWord true a d) ∈ readOnlyRows a d := by
  rw [decodeWord_packWord, decodeFieldsOfWord_of_readOnly ha]
  exact decodeReadOnlyWrite_mem_readOnlyRows a d

/-- Settles O29: the decoder answers one of the nine rows, and all nine have one effect. -/
theorem readOnlyWriteResult : Obligations.ReadOnlyWriteResult := by
  intro a d s
  refine ⟨fun ha => decodeWord_mem_readOnlyRows ha d, fun i hi => ?_⟩
  rw [exec_eq_effect, effect_of_mem_readOnlyRows hi, State.refuseWrite_eq]

/-- Settles O30: the step runs the row that the write word decodes to, or the read. -/
theorem readOnlyWordSetsAddrErr : Obligations.ReadOnlyWordSetsAddrErr := by
  intro a d s rest
  refine ⟨fun ha => ?_, ?_⟩
  · rw [step_of_transaction _ (packWord true a d) rest rfl,
      effect_of_mem_readOnlyRows (decodeWord_mem_readOnlyRows ha d)]
    rfl
  · rw [step_of_transaction _ (packWord false a 0x00#8) rest rfl, decodeWord_packWord]
    rfl

/-! ### The read (R140) -/

/-- The verdict's checksums read as zero while there is none (R51). -/
theorem readsZero_val_of_none {s : State} (hv : s.vr = none) : ReadsZero s 0x10A 0x10D := by
  have hcomputed : s.valComputed = 0x0000#16 := by rw [State.valComputed, hv]
  have hreceived : s.valReceived = 0x0000#16 := by rw [State.valReceived, hv]
  intro a h1 h2
  obtain rfl | rfl | rfl | rfl : a = 0x10A ∨ a = 0x10B ∨ a = 0x10C ∨ a = 0x10D := by omega
  · exact congrArg (byteOf · 0) hcomputed
  · exact congrArg (byteOf · 1) hcomputed
  · exact congrArg (byteOf · 0) hreceived
  · exact congrArg (byteOf · 1) hreceived

/-- The frame window reads as zero beyond the received bytes (R38 item 3). -/
theorem readReg_beyond_length {s : State} (hz : ZeroBeyondLength s) (a : Addr) (hlo : min s.frameLen.toNat 256 ≤ a.toNat)
    (hhi : a.toNat < 256) : readReg s a = 0x00#8 := by
  have hread := readReg_frame s a.toNat (by omega)
  rw [BitVec.ofNat_toNat, BitVec.setWidth_eq] at hread
  exact hread.trans (hz _ hlo hhi)

/-- Settles O26: the decode and the effect evaluate; the zero reads are those of the register map's parts. -/
theorem readResult : Obligations.ReadResult := fun a d s =>
  ⟨decodeWord_packWord false a d, exec_eq_effect (.rd a d) s, unmappedRegisters s, readsZero_val_of_none,
    readsZero_dec_of_none, readsZero_sum_of_none, fun hz => readReg_beyond_length hz a⟩

/-! ### The ERR port (R144) -/

/-- The W1C mask holds the six flags. -/
theorem w1cMask_getLsbD : ∀ b, b < 8 → w1cMask.getLsbD b = decide (b < 6) := by decide

/-- Settles O28: `clearFlags`, bit by bit. -/
theorem writeErrResult : Obligations.WriteErrResult := by
  intro d s
  refine ⟨decodeWord_packWord _ _ _, clearFlags s.err d, exec_eq_effect _ _, fun b hb => ?_⟩
  rw [clearFlags_getLsbD, w1cMask_getLsbD b hb]

end Sys2Proof.Machine

/-! The statements of spec/41_checksum.md: crc_step as shifts and as a bijection (R160, R162), the fold over the bytes and
what it detects (R161), and the streaming accumulator (R163 to R165). -/

namespace Sys2Proof.Machine

open Sys2Proof.Claims

/-! ### crc_step (R160, R162) -/

/-- `n` shifts are `n` iterations of the one shift. -/
theorem crcShifts_eq_iterate (n : Nat) (acc : U16) : crcShifts n acc = crcShift^[n] acc := by
  induction n generalizing acc with
  | zero => rfl
  | succ n ih => exact ih (crcShift acc)

/-- Settles O8: the model's eight shifts are eight iterations of `crcShift`, which is the statement's shift. -/
theorem crcStepIsEightShifts : Obligations.CrcStepIsEightShifts := fun acc b =>
  crcShifts_eq_iterate 8 (acc ^^^ b.setWidth 16)

/-- For each byte, crc_step maps no two accumulators to one. -/
theorem crcStep_injective_acc (b : Byte) : Function.Injective fun acc => crcStep acc b := fun _ _ h =>
  (BitVec.xor_left_inj _).mp (crcShifts_injective 8 h)

/-- For each accumulator, crc_step maps no two bytes to one: widening a byte loses nothing. -/
theorem crcStep_injective_byte (acc : U16) : Function.Injective (crcStep acc) := by
  intro a b h
  have hwide : a.setWidth 16 = b.setWidth 16 := (BitVec.xor_right_inj _).mp (crcShifts_injective 8 h)
  simpa using congrArg (BitVec.setWidth 8) hwide

/-- Settles O10: an injective map of the finitely many accumulators to themselves is a bijection. -/
theorem crcStepIsBijective : Obligations.CrcStepIsBijective := by
  intro b
  have : Finite U16 := .of_equiv _ BitVec.equivFin.toEquiv.symm
  exact Finite.injective_iff_bijective.mp (crcStep_injective_acc b)

/-! ### The checksum of a byte list (R161) -/

/-- Settles O9: the checksum is a left fold. -/
theorem checksumFoldsEachByte : Obligations.ChecksumFoldsEachByte :=
  ⟨rfl, fun _ _ => List.foldl_concat ..⟩

/-- Folding the same bytes keeps different accumulators different. -/
theorem foldl_crcStep_injective (bs : List Byte) : Function.Injective fun acc => bs.foldl crcStep acc := by
  induction bs with
  | nil => exact fun _ _ h => h
  | cons b bs ih => exact fun _ _ h => crcStep_injective_acc b (ih h)

/-- The checksum tells apart any two values of one byte: they part the accumulator, and the bytes after it cannot join it
again. -/
theorem checksum_set_injective (bs : List Byte) (k : Nat) (hk : k < bs.length) :
    Function.Injective fun b => checksum (bs.set k b) := by
  intro a b h
  simp only [List.set_eq_take_append_cons_drop, if_pos hk, checksum, List.foldl_append, List.foldl_cons] at h
  exact crcStep_injective_byte _ (foldl_crcStep_injective _ h)

/-! ### A frame with one byte changed (R182) -/

/-- The transform gives the checksum back: it splits it into its bytes and joins them in the same order (R181). -/
@[simp] theorem transform_eq_self (c : U16) : transform c = c :=
  (be16OfBytes_eq_append _ _).trans (byteOf_append16 c)

/-- A 256-byte frame passes exactly when its last two bytes are the checksum of the others, high byte first (R182). -/
theorem validate_checksumValid_iff (m : Memory) :
    (validate m 256#16).checksumValid = true ↔ m.read 254 ++ m.read 255 = checksum (sliceList m 0 254) := by
  rw [validate_of_eq m _ rfl, transform_eq_self, be16, be16OfBytes_eq_append]
  exact decide_eq_true_iff

/-- Buffers that read alike below a length have the same slice up to it. -/
theorem sliceList_congr {m n : Memory} {len : Nat} (h : ∀ j, j < len → m.read j = n.read j) :
    sliceList m 0 len = sliceList n 0 len :=
  List.map_congr_left fun j hj => by rw [Nat.zero_add, h j (List.mem_range.mp hj)]

/-- A slice of another buffer that differs at one address only is the slice with that byte replaced. -/
theorem sliceList_eq_set {m n : Memory} {k len : Nat} (hsame : ∀ j, j < len → j ≠ k → m.read j = n.read j) :
    sliceList n 0 len = (sliceList m 0 len).set k (n.read k) := by
  refine List.ext_getElem (by simp) fun j hj _ => ?_
  rw [sliceList_length] at hj
  rw [List.getElem_set, sliceList_getElem, sliceList_getElem, Nat.zero_add]
  split_ifs with h
  · rw [h]
  · exact (hsame j hj (Ne.symm h)).symm

/-- The checksums of two frames that differ in one checked byte differ. -/
theorem checksum_sliceList_ne {m n : Memory} {k len : Nat} (hk : k < len) (hdiff : m.read k ≠ n.read k)
    (hsame : ∀ j, j < len → j ≠ k → m.read j = n.read j) :
    checksum (sliceList m 0 len) ≠ checksum (sliceList n 0 len) := by
  intro h
  have hm : sliceList m 0 len = (sliceList m 0 len).set k (m.read k) := sliceList_eq_set fun _ _ _ => rfl
  rw [sliceList_eq_set hsame, hm, List.set_set] at h
  exact hdiff (checksum_set_injective _ k (by simpa using hk) h)

/-- Settles O15: a changed byte below 254 changes the checksum and not the two bytes it is compared with, and a changed
byte from 254 on changes those and not the checksum. -/
theorem singleByteCorruptionIsDetected : Obligations.SingleByteCorruptionIsDetected := by
  intro m n k hk hdiff hsame hm
  rw [← Bool.not_eq_true]
  intro hn
  rw [validate_checksumValid_iff] at hm hn
  by_cases hchecked : k < 254
  · have hne := checksum_sliceList_ne hchecked hdiff fun j hj => hsame j (by omega)
    rw [← hm, ← hn, hsame 254 (by omega) (by omega), hsame 255 (by omega) (by omega)] at hne
    exact hne rfl
  · have hslice : sliceList m 0 254 = sliceList n 0 254 := sliceList_congr fun j hj => hsame j (by omega) (by omega)
    rw [hslice, ← hn] at hm
    obtain rfl | rfl : k = 254 ∨ k = 255 := by omega
    · rw [hsame 255 (by omega) (by omega), BitVec.append_left_inj] at hm
      exact hdiff hm
    · rw [hsame 254 (by omega) (by omega), BitVec.append_right_inj] at hm
      exact hdiff hm

/-! ### The streaming accumulator (R163 to R165) -/

/-- Settles O11: the word evaluates to CRC_INIT, whose effect is one write of CRC_ACC. -/
theorem crcInitResult : Obligations.CrcInitResult :=
  ⟨by decide, exec_eq_effect .crcInit⟩

/-- Settles O12: the dispatch on address 0x106, and an effect that is one write of CRC_ACC. -/
theorem crcDataResult : Obligations.CrcDataResult := fun d s =>
  ⟨decodeWord_packWord true 0x106#9 d, exec_eq_effect (.wrCrcData d) s⟩

/-- No register shows the bytes the host has read (R140). -/
@[simp] theorem readReg_respond (s : State) (r : Byte) (a : Addr) : readReg (s.respond r) a = readReg s a := rfl

/-- RD16 answers the bytes at an address and at the next, and changes nothing else (R89, R140). -/
theorem runInputs_rd16 (a : Addr) (s : State) :
    runInputs (assemble [.rd16 a]) s =
      .next { s with pending := [], reads := s.reads ++ [readReg s a, readReg s (a + 1#9)] } := by
  have hread : ∀ b : Addr, decodeWord (AsmLine.rd b).word = .rd b 0x00#8 := fun b => decodeWord_packWord false b _
  calc runInputs (assemble [.rd16 a]) s
      = .next (((s.respond (readReg s a)).respond (readReg s (a + 1#9))).withInputs []) := by
        simp [assemble, Pseudo.expand, runInputs_transaction, hread, effect]
    _ = _ := by simp [State.respond, State.withInputs]

/-- The value of an RD16: the second byte is the high one (R89). -/
theorem rd16Value_eq_append (lo hi : Byte) : rd16Value lo hi = hi ++ lo := be16OfBytes_eq_append hi lo

/-- Settles O14: the two registers are the bytes of CRC_ACC. -/
theorem readingTheAccumulator : Obligations.ReadingTheAccumulator := fun s =>
  ⟨byteOf s.crcAcc 0, byteOf s.crcAcc 1, runInputs_rd16 0x108#9 s,
    (rd16Value_eq_append _ _).trans (byteOf_append16 s.crcAcc), rfl, rfl⟩

/-! ### The checksum stream beside the frame path (R164, R182, D13) -/

/-- Raising a verdict's flag and setting CRC_ACC commute: they touch ERR and CRC_ACC. -/
theorem State.flagVerdict_setCrcAcc (s : State) (r : ValResult) (v : U16) :
    (s.flagVerdict r).setCrcAcc v = (s.setCrcAcc v).flagVerdict r := by
  unfold State.flagVerdict
  split_ifs <;> rfl

/-- A validation does not look at CRC_ACC (R182). -/
theorem State.runValidation_setCrcAcc (s : State) (v : U16) :
    (s.setCrcAcc v).runValidation = s.runValidation.setCrcAcc v :=
  (State.flagVerdict_setCrcAcc (s.setVr _) _ v).symm

/-- Nor does a DECODE (R220). -/
theorem State.runDecode_setCrcAcc (s : State) (v : U16) : (s.setCrcAcc v).runDecode = s.runDecode.setCrcAcc v := by
  rw [State.runDecode, State.runValidation_setCrcAcc]
  rfl

/-- Nor does a PROJECT (R255). -/
theorem State.runProject_setCrcAcc (s : State) (v : U16) : (s.setCrcAcc v).runProject = s.runProject.setCrcAcc v := by
  unfold State.runProject
  rw [State.setCrcAcc_df]
  split <;> rfl

/-- Nor does the store of a frame byte (R142). -/
theorem State.storeFrameByte_setCrcAcc (s : State) (d : Byte) (v : U16) :
    (s.setCrcAcc v).storeFrameByte d = (s.storeFrameByte d).setCrcAcc v := by
  rcases ha : s.appendAddress with _ | a
  · rw [s.storeFrameByte_of_none d ha, (s.setCrcAcc v).storeFrameByte_of_none d ha]
    rfl
  · rw [s.storeFrameByte_of_some d a ha, (s.setCrcAcc v).storeFrameByte_of_some d a ha]
    rfl

/-- A write other than CRC_INIT, CRC_DATA and RESET does the same whatever CRC_ACC holds. -/
theorem effect_setCrcAcc (i : Instr) (s : State) (v : U16) (hinit : i ≠ .crcInit) (hdata : ∀ d, i ≠ .wrCrcData d)
    (hreset : i ≠ .reset) (hrd : ∀ a d, i ≠ .rd a d) : effect i (s.setCrcAcc v) = (effect i s).setCrcAcc v := by
  cases i with
  | crcInit => exact absurd rfl hinit
  | wrCrcData d => exact absurd rfl (hdata d)
  | reset => exact absurd rfl hreset
  | rd a d => exact absurd rfl (hrd a d)
  | validate => exact s.runValidation_setCrcAcc v
  | decode => exact s.runDecode_setCrcAcc v
  | project => exact s.runProject_setCrcAcc v
  | process =>
    simp only [effect, State.setCrcAcc_frameLen, State.runDecode_setCrcAcc, State.runProject_setCrcAcc]
    split_ifs <;> rfl
  | wrFrameData d => exact congrArg State.countFrameByte (s.storeFrameByte_setCrcAcc d v)
  | _ => rfl

/-- Settles O47: a write of the frame path commutes with setting CRC_ACC, and the two checksum transactions are
`setCrcAcc` to a value taken from CRC_ACC alone. -/
theorem checksumStreamAndFramePathIndependent : Obligations.ChecksumStreamAndFramePathIndependent := by
  refine ⟨fun i s v hinit hdata hreset hrd => ⟨effect i s, exec_eq_effect i s, ?_, ?_⟩, fun i acc hi => ?_⟩
  · by_contra hne
    obtain h | ⟨d, h⟩ := effect_changes_crcAcc i s hreset hne
    · exact hinit h
    · exact hdata d h
  · exact (exec_eq_effect i (s.setCrcAcc v)).trans
      (congrArg _ (effect_setCrcAcc i s v hinit hdata hreset hrd))
  · obtain rfl | ⟨d, rfl⟩ := hi
    · exact ⟨0xFFFF#16, fun s _ => exec_eq_effect .crcInit s⟩
    · exact ⟨crcStep acc d, fun s hs => hs ▸ exec_eq_effect (.wrCrcData d) s⟩

end Sys2Proof.Machine

/-! The statements of spec/42_validator.md: what makes a frame pass (R181), and the three verdicts of VALIDATE with the
state each leaves (R182, R183). -/

namespace Sys2Proof.Machine

/-! ### The pass condition (R181) -/

/-- A slice from address 0 reads the addresses below its length. -/
theorem sliceList_zero (m : Memory) (len : Nat) : sliceList m 0 len = (List.range len).map m.read :=
  List.map_congr_left fun k _ => congrArg m.read (Nat.zero_add k)

/-- A half-word is two given bytes exactly when they are its high and its low byte. -/
theorem append_eq_iff_byteOf (hi lo : Byte) (c : U16) : hi ++ lo = c ↔ hi = byteOf c 1 ∧ lo = byteOf c 0 := by
  constructor
  · rintro rfl
    exact ⟨BitVec.extractLsb'_append_eq_left.symm, BitVec.extractLsb'_append_eq_right.symm⟩
  · rintro ⟨rfl, rfl⟩
    exact byteOf_append16 c

/-- Settles O16: the pass condition compares half-words, and `append_eq_iff_byteOf` compares them byte by byte. -/
theorem passMeansHighByteFirst : Obligations.PassMeansHighByteFirst := by
  refine ⟨transform_eq_self, fun m => ?_⟩
  rw [validate_checksumValid_iff, sliceList_zero]
  exact append_eq_iff_byteOf _ _ _

/-! ### The three verdicts (R182, R183) -/

/-- The verdict on a complete frame, with both checksums over the single bytes of the buffer. -/
theorem validate_complete (fb : Memory) (len : U16) (h : len.toNat = 256) :
    validate fb len =
      ⟨true, decide (fb.read 254 ++ fb.read 255 = transform (checksum ((List.range 254).map fb.read))),
        transform (checksum ((List.range 254).map fb.read)), fb.read 254 ++ fb.read 255⟩ := by
  rw [validate_of_eq fb len h, sliceList_zero, be16, be16OfBytes_eq_append]

/-- VALIDATE records the verdict on the buffer and raises the flag of that verdict. -/
theorem exec_validate {s : State} {v : ValResult} (h : validate s.fb s.frameLen = v) :
    exec .validate s = .next ((s.setVr v).flagVerdict v) := by
  rw [exec_eq_effect, effect, State.runValidation, h]

/-- Settles O17: one use of `exec_validate` per verdict, whose flag then evaluates. -/
theorem validateResult : Obligations.ValidateResult := by
  refine ⟨rfl, fun s => ⟨fun hlen => exec_validate (validate_of_ne _ _ hlen), fun hlen => ?_⟩⟩
  have hv := validate_complete s.fb s.frameLen hlen
  refine ⟨fun heq => ?_, fun hne => ?_⟩
  · rw [decide_eq_true heq] at hv
    exact exec_validate hv
  · rw [decide_eq_false hne] at hv
    exact exec_validate hv

end Sys2Proof.Machine

/-! The statements of spec/43_decoder.md: when a frame is decoded (R200), the field of each offset (R201 to R219), the
physical values (R221) and what DECODE does to the state (R220). -/

namespace Sys2Proof.Machine

/-! ### When a frame is decoded (R200) -/

/-- Settles O18: the verdict's `lengthOk` is the length test, and the verdict itself is only passed on. -/
theorem decodeAbsentOnlyForLength : Obligations.DecodeAbsentOnlyForLength :=
  fun m len => ⟨decodeFrame_of_ne m len, decodeFrame_of_eq m len⟩

/-- Both cases of `decodeFrame` as one equation. -/
theorem decodeFrame_eq_ite (fb : Memory) (len : U16) :
    decodeFrame fb len = if len.toNat = 256 then some (decodeFields fb (validate fb len).checksumValid) else none := by
  split
  case isTrue h => exact decodeFrame_of_eq fb len h
  case isFalse h => exact decodeFrame_of_ne fb len h

/-! ### The fields outside the modules and the charging record (R201 to R203, R219) -/

/-- The active bitmap is the low nibble of byte 23 (R203). -/
theorem decodeFields_activeBitmap_getLsbD (m : Memory) (cv : Bool) {b : Nat} (hb : b < 4) :
    (decodeFields m cv).activeBitmap.getLsbD b = (m.read 23).getLsbD b := by
  simp [decodeFields, hb]

/-- Settles O19: the byte fields are slices, which `slice_getElem` reads, and the bitmap is a nibble. -/
theorem outerFieldsDecoded : Obligations.OuterFieldsDecoded := by
  refine fun m cv => ⟨fun k h => ?header, fun k h => ?active, fun _ => decodeFields_activeBitmap_getLsbD m cv,
    fun k h => ?padding, fun k h => ?checksum, rfl⟩
  case header => exact (slice_getElem m 0 20 k h).trans (congrArg m.read (Nat.zero_add k))
  case active => exact slice_getElem m 20 3 k h
  case padding => exact slice_getElem m 168 86 k h
  case checksum => exact slice_getElem m 254 2 k h

/-! ### Physical values (R12, R221) -/

/-- A physical value is the raw value over the field's divisor. -/
theorem physicalValue_eq_div {w : Nat} (f : ScaledField) (raw : BitVec w) :
    physicalValue f raw = raw.toNat / f.divisor := by
  rw [physicalValue, Rat.mkRat_eq_div, Int.cast_natCast]

/-- A field in deci-units stands for a tenth of its raw value. -/
theorem physicalValue_of_deci {w : Nat} {f : ScaledField} (h : f.divisor = 10) (raw : BitVec w) :
    physicalValue f raw = raw.toNat / 10 := by
  rw [physicalValue_eq_div, h, Nat.cast_ofNat]

/-- A field in whole units stands for its raw value. -/
theorem physicalValue_of_unit {w : Nat} {f : ScaledField} (h : f.divisor = 1) (raw : BitVec w) :
    physicalValue f raw = raw.toNat := by
  rw [physicalValue_eq_div, h, Nat.cast_one, div_one]

/-- Settles O22: each group of fields has one divisor. -/
theorem decodedScales : Obligations.DecodedScales := by
  refine fun w raw => ⟨fun f hf => physicalValue_of_deci ?_ raw, fun f hf => physicalValue_of_unit ?_ raw⟩
  all_goals
    revert f
    decide

/-! ### The power modules (R204 to R207) -/

/-- Module `i` of the record is the decoding of the bytes at its base. -/
theorem decodeFields_powerModules_getElem (m : Memory) (cv : Bool) (i : Nat) (h : i < 7) :
    (decodeFields m cv).powerModules[i] = decodeModule m i :=
  Vector.getElem_ofFn h

/-- Settles O20: the fields of `decodeModule`, whose half-words are read by `le16_eq_append`. -/
theorem moduleFieldsDecoded : Obligations.ModuleFieldsDecoded := by
  intro m cv i h
  dsimp only
  rw [decodeFields_powerModules_getElem]
  exact ⟨rfl, rfl, le16_eq_append _ _, le16_eq_append _ _, le16_eq_append _ _, slice_getElem _ _ _,
    physicalValue_of_unit rfl _, physicalValue_of_deci rfl _, physicalValue_of_deci rfl _, physicalValue_of_deci rfl _⟩

/-! ### The charging record (R208 to R218) -/

/-- A bit field is the shifted byte under a mask that keeps the field's width. -/
theorem extractLsb'_eq_shift_mask {v w : Nat} (x mask : BitVec v) (k : Nat) (h : mask.setWidth w = BitVec.allOnes w) :
    x.extractLsb' k w = ((x >>> k) &&& mask).setWidth w := by
  rw [BitVec.setWidth_and, h, BitVec.and_allOnes, BitVec.setWidth_ushiftRight_eq_extractLsb]

/-- A bit field at bit 0 needs no shift. -/
theorem extractLsb'_zero_eq_mask {v w : Nat} (x mask : BitVec v) (h : mask.setWidth w = BitVec.allOnes w) :
    x.extractLsb' 0 w = (x &&& mask).setWidth w := by
  rw [extractLsb'_eq_shift_mask x mask 0 h, BitVec.ushiftRight_zero]

/-- Settles O21: single bytes are read as they stand, bit fields by their masks, integers little-endian, and the
physical values by their divisors. -/
theorem chargingFieldsDecoded : Obligations.ChargingFieldsDecoded := by
  intro m cv
  exact ⟨rfl, rfl,
    -- bytes 138 and 139 (R209, R210)
    extractLsb'_zero_eq_mask _ _ rfl, extractLsb'_eq_shift_mask _ _ 1 rfl, extractLsb'_eq_shift_mask _ _ 4 rfl,
    extractLsb'_eq_shift_mask _ _ 4 rfl, extractLsb'_zero_eq_mask _ _ rfl,
    -- bytes 140 to 167 (R211 to R218)
    le32_eq_append m 140, le32_eq_append m 144, rfl, rfl, slice_getElem m 150 2 0 _, slice_getElem m 150 2 1 _,
    le16_eq_append m 152, le16_eq_append m 154, rfl, rfl, slice_getElem m 158 2 0 _, slice_getElem m 158 2 1 _,
    le16_eq_append m 160, le16_eq_append m 162, le32_eq_append m 164,
    -- the physical values
    physicalValue_of_unit rfl _, physicalValue_of_unit rfl _, physicalValue_of_deci rfl _, physicalValue_of_deci rfl _,
    physicalValue_of_unit rfl _, physicalValue_of_unit rfl _, physicalValue_of_deci rfl _, physicalValue_of_deci rfl _,
    physicalValue_of_unit rfl _⟩

/-! ### DECODE (R220) -/

/-- DECODE is a validation, and then DF is set to the decoding of the buffer. -/
theorem exec_decode (s : State) : exec .decode s = .next (s.runValidation.setDf (decodeFrame s.fb s.frameLen)) :=
  exec_eq_effect .decode s

/-- Settles O23: `exec_validate` and `exec_decode` share the state after `runValidation`, which changes VR and ERR only. -/
theorem decodeResult : Obligations.DecodeResult := by
  refine ⟨rfl, fun s => ⟨s.runValidation, exec_validate rfl, s.runValidation_vr, s.runValidation_fb,
    s.runValidation_frameLen, s.runValidation_crcAcc, s.runValidation_sum, s.runValidation_sumSeq,
    s.runValidation_errOpc, s.runValidation_out, ?_⟩⟩
  rw [← decodeFrame_eq_ite]
  exact exec_decode s

end Sys2Proof.Machine

/-! The statements of spec/44_projector.md: the fields of a summary and what they stand for (R250 to R254), and what
PROJECT does to the state (R255). -/

namespace Sys2Proof.Machine

/-! ### The summary (R250 to R254) -/

/-- Entry `i` of the summary comes from module record `i`, and from no other (R254). -/
theorem project_modules_getElem (d : DecodedFrame) (i : Nat) (h : i < 7) :
    (project d).modules[i] = projectModule d.powerModules[i] :=
  Vector.getElem_map projectModule h

/-- Settles O24: `project` reads the charging record and, by `project_modules_getElem`, module `i` for entry `i`; the
state of charge is in whole units and the module entries are in deci-units. -/
theorem projectFunction : Obligations.ProjectFunction := by
  intro d
  refine ⟨rfl, rfl, project_modules_getElem d, fun _ => rfl, physicalValue_of_unit rfl _, fun i h => ?_⟩
  rw [project_modules_getElem d i h]
  exact ⟨physicalValue_of_deci rfl _, physicalValue_of_deci rfl _, physicalValue_of_deci rfl _⟩

/-! ### PROJECT (R255) -/

/-- With a decoded frame PROJECT publishes its projection. -/
theorem exec_project_of_some (s : State) (d : DecodedFrame) (h : s.df = some d) :
    exec .project s = .next (s.publish (project d)) := by
  rw [exec_eq_effect, effect, s.runProject_of_some d h]

/-- Without one PROJECT only raises NO_FRAME. -/
theorem exec_project_of_none (s : State) (h : s.df = none) : exec .project s = .next (s.seterr .noFrame) := by
  rw [exec_eq_effect, effect, s.runProject_of_none h]

/-- Settles O25: one case per value of DF; publishing sets SUM, SUM_SEQ and OUT, and `seterr` sets ERR bit 3. -/
theorem projectResult : Obligations.ProjectResult :=
  ⟨rfl, fun s => ⟨exec_project_of_some s, exec_project_of_none s⟩⟩

end Sys2Proof.Machine

/-! The statements of spec/45_control.md: NOP, FRAME_CLEAR, PROCESS, RESET and the reserved opcodes (R270 to R274). -/

namespace Sys2Proof.Machine

open Sys2Proof.Claims

/-! ### NOP (R270) -/

/-- Settles O1: the word decodes to NOP, whose effect is the state itself. -/
theorem nopChangesNothing : Obligations.NopChangesNothing := fun s rest =>
  ⟨exec_eq_effect .nop s, step_of_transaction _ 0x30000#18 rest rfl⟩

/-! ### FRAME_CLEAR (R271) -/

/-- While the buffer is empty and without results, STATUS shows the summary and the errors only (R35). -/
theorem statusByte_of_empty_frame {s : State} (hlen : s.frameLen = 0x0000#16) (hvr : s.vr = none) (hdf : s.df = none) :
    statusByte s = flagBit 4 s.sum.isSome ||| flagBit 7 (decide (s.err ≠ 0#8)) := by
  have unset (i : Nat) : flagBit i false = 0#8 := rfl
  simp [statusByte, State.lenOk, State.crcValid, hlen, hvr, hdf, unset]

/-- The mask 0x6F leaves out STATUS bits 4 and 7. -/
theorem flagBit_sum_err_and_frameMask : ∀ b c : Bool, (flagBit 4 b ||| flagBit 7 c) &&& 0x6F#8 = 0x00#8 := by decide

/-- Settles O2: the state is `clearFrame`'s, and its STATUS is that of an empty frame. -/
theorem frameClearResult : Obligations.FrameClearResult := by
  refine ⟨rfl, fun s => ⟨s.clearFrame, exec_eq_effect .frameClear s, fun _ => rfl, rfl, rfl, rfl, ?_,
    rfl, rfl, rfl, rfl, rfl, rfl, rfl, rfl⟩⟩
  rw [statusByte_of_empty_frame rfl rfl rfl]
  exact flagBit_sum_err_and_frameMask _ _

/-! ### PROCESS (R272) -/

/-- With a complete frame PROCESS publishes the projection of the frame that its DECODE leaves. -/
theorem exec_process_of_eq (s : State) (h : s.frameLen.toNat = 256) :
    exec .process s =
      .next (s.runDecode.publish (project (decodeFields s.fb (validate s.fb s.frameLen).checksumValid))) := by
  have hdf : s.runDecode.df = some (decodeFields s.fb (validate s.fb s.frameLen).checksumValid) := by
    rw [s.runDecode_df, decodeFrame_of_eq _ _ h]
  rw [exec_eq_effect, effect, if_pos h, s.runDecode.runProject_of_some _ hdf]

/-- With another length PROCESS is DECODE. -/
theorem exec_process_of_ne (s : State) (h : s.frameLen.toNat ≠ 256) : exec .process s = .next s.runDecode := by
  rw [exec_eq_effect, effect, if_neg h]

/-- A validation of a buffer with a wrong length raises LEN_ERR and no other flag (R182). -/
theorem State.runValidation_err_of_ne (s : State) (h : s.frameLen.toNat ≠ 256) :
    s.runValidation.err = s.err ||| 0x01#8 := by
  rw [State.runValidation, validate_of_ne _ _ h]
  rfl

/-- Settles O7: one case per length, over the state `runDecode` leaves, which keeps SUM_SEQ and OUT. -/
theorem processResult : Obligations.ProcessResult := by
  refine ⟨rfl, fun s => ⟨s.runDecode, exec_eq_effect .decode s, fun hlen => ?complete, fun hlen => ?wrongLength⟩⟩
  case complete =>
    rw [exec_process_of_eq s hlen, ← s.runDecode_sumSeq, ← s.runDecode_out]
    rfl
  case wrongLength =>
    refine ⟨exec_process_of_ne s hlen, ?_, s.runDecode_out, s.runValidation_err_of_ne hlen⟩
    rw [s.runDecode_df, decodeFrame_of_ne _ _ hlen]

/-! ### RESET (R273, R331) -/

/-- What survives a reset, OUT and the host port, is not in the register map. -/
theorem readReg_toReset (s : State) (a : Addr) : readReg s.toReset a = readReg State.reset a := rfl

/-- The register map of the reset state, address by address (R273). -/
theorem readReg_reset : ∀ a : Addr,
    readReg State.reset a = if a = 0x108#9 ∨ a = 0x109#9 then 0xFF#8 else 0x00#8 := by
  decide +kernel

/-- Settles O3: the components are `toReset`'s, and its registers read as those of the reset state. -/
theorem resetCommandResult : Obligations.ResetCommandResult := by
  refine ⟨rfl, fun s rest => rfl, fun s => ⟨s.toReset, exec_eq_effect .reset s, fun _ => rfl, rfl, rfl, rfl, rfl, rfl, rfl,
    rfl, rfl, rfl, fun a => ?_⟩⟩
  rw [readReg_toReset, readReg_reset]

/-! ### The reserved opcodes (R274) -/

/-- A rejected command records the opcode and sets ERR bit 2, and nothing else. -/
theorem State.rejectCommand_eq (s : State) (d : Byte) :
    s.rejectCommand d = { s with errOpc := d, err := s.err ||| 0x04#8 } := rfl

/-- Each of the five rows rejects its opcode. -/
theorem effect_of_mem_reservedRows {i : Instr} {d : Byte} (h : i ∈ reservedRows d) (s : State) :
    effect i s = s.rejectCommand d := by
  simp only [reservedRows, List.mem_cons, List.not_mem_nil, or_false] at h
  obtain rfl | rfl | rfl | rfl | rfl := h
  all_goals rfl

/-- A write of a reserved opcode to CMD decodes to one of the five rows. -/
theorem decodeWord_mem_reservedRows {d : Byte} (h : 0x08 ≤ d.toNat) :
    decodeWord (packWord true 0x100#9 d) ∈ reservedRows d := by
  rw [decodeWord_packWord]
  exact decodeCommand_mem_reservedRows d h

/-- Settles O5: the decoder answers one of the five rows, and all five have one effect. -/
theorem reservedCommandResult : Obligations.ReservedCommandResult := by
  refine fun d s => ⟨decodeWord_mem_reservedRows, fun i hi => ?_⟩
  rw [exec_eq_effect, effect_of_mem_reservedRows hi, State.rejectCommand_eq]

/-- Settles O6: the step runs the reserved row that the written word decodes to. -/
theorem reservedOpcodeWordIsRejected : Obligations.ReservedOpcodeWordIsRejected := by
  intro d s rest hd
  rw [step_of_transaction _ (packWord true 0x100#9 d) rest rfl,
    effect_of_mem_reservedRows (decodeWord_mem_reservedRows hd)]
  rfl

end Sys2Proof.Machine

/-! The statement of spec/60_exceptions.md: what one transaction does to the error flags (R309). -/

namespace Sys2Proof.Machine

/-- A W1C write sets no bit of ERR (R144, R309). -/
theorem clearFlags_and_not (e d : Byte) : clearFlags e d &&& ~~~e = 0x00#8 := by
  calc e &&& ~~~(d &&& w1cMask) &&& ~~~e
      = e &&& ~~~e &&& ~~~(d &&& w1cMask) := by ac_rfl
    _ = 0x00#8 := by simp

/-- Settles O37, by the cases of `effect_err_cases`: RESET and WR_ERR set no bit, and any other instruction keeps ERR or
raises one flag of its row. -/
theorem atMostOneFlagRaised : Obligations.AtMostOneFlagRaised := by
  intro i s t h
  obtain rfl := exec_next h
  obtain ⟨hi, he⟩ | ⟨d, hi, he⟩ | hkept | hraised := effect_err_cases i s
  · exact .inr (.inr ⟨.inl hi, by rw [he, BitVec.zero_and]⟩)
  · exact .inr (.inr ⟨.inr ⟨d, hi⟩, by rw [he, clearFlags_and_not]⟩)
  · exact .inl hkept
  · exact .inr (.inl hraised)

end Sys2Proof.Machine

/-! The statements of spec/70_reset_and_hazards.md: the start state (R331, R340), the per-frame sequence (R334), the checksum
stream (R335) and how long the results last (R336). -/

namespace Sys2Proof.Machine

open Sys2Proof.Claims

/-! ### The start state (R331, R340) -/

/-- Settles O4: each component is written so in `State.reset`, and an empty store reads as zero. -/
theorem startStateIsResetState : Obligations.StartStateIsResetState :=
  ⟨Memory.read_nil, rfl, rfl, rfl, rfl, rfl, rfl, rfl, rfl, rfl, rfl, rfl⟩

/-! ### Runs of pseudo-instructions (R89) -/

/-- The inputs of two lists of pseudo-instructions follow one another. -/
theorem assemble_append (ps qs : List Pseudo) : assemble (ps ++ qs) = assemble ps ++ assemble qs := by
  simp [assemble]

/-- A run applies its first command, then the rest (R83). -/
theorem runInputs_command (c : CommandName) (ps : List Pseudo) (s : State) :
    runInputs (assemble (.command c :: ps)) s = runInputs (assemble ps) (effect (decodeCommand c.opcode) s) := by
  have hw : decodeWord (AsmLine.wr 0x100#9 c.opcode).word = decodeCommand c.opcode := decodeWord_packWord true 0x100#9 _
  rw [← hw]
  exact runInputs_transaction _ _ s

/-- A run of CRCBs folds their bytes into CRC_ACC and does nothing else (R164). -/
theorem runInputs_crcBs (bs : List Byte) (xs : List HostInput) (s : State) :
    runInputs (assemble (bs.map .crcB) ++ xs) s = runInputs xs (s.setCrcAcc (bs.foldl crcStep s.crcAcc)) := by
  induction bs generalizing s with
  | nil => rfl
  | cons b bs ih =>
    have hw : decodeWord (AsmLine.wr 0x106#9 b).word = .wrCrcData b := decodeWord_packWord true 0x106#9 b
    calc runInputs (assemble ((b :: bs).map .crcB) ++ xs) s
        = runInputs (assemble (bs.map .crcB) ++ xs) (effect (.wrCrcData b) s) := by
          rw [← hw]
          exact runInputs_transaction _ _ s
      _ = _ := ih _

/-! ### The checksum stream (R335) -/

/-- A run of CRCBs alone. -/
theorem runInputs_crcBs_only (bs : List Byte) (s : State) :
    runInputs (assemble (bs.map .crcB)) s = .next { s with pending := [], crcAcc := bs.foldl crcStep s.crcAcc } := by
  have hrun := runInputs_crcBs bs [] s
  rwa [List.append_nil] at hrun

/-- Settles O13: CRC_INIT and reset both start the fold at 0xFFFF, where `checksum` starts, and the read takes the two
bytes of the accumulator. -/
theorem checksumStreamSequence : Obligations.ChecksumStreamSequence := by
  refine fun bs => ⟨fun s => ⟨byteOf (checksum bs) 0, byteOf (checksum bs) 1, ?_, ?_⟩, runInputs_crcBs_only bs,
    fun s => runInputs_crcBs_only bs s.toReset⟩
  · rw [List.cons_append, runInputs_command, assemble_append, runInputs_crcBs]
    exact runInputs_rd16 0x108#9 _
  · rw [rd16Value_eq_append, byteOf_append16]

/-! ### PROCESS and its parts (R272, R334 item 3) -/

/-- A DECODE does the validation itself, so that a VALIDATE before it makes no difference (R220). -/
@[simp] theorem State.runDecode_runValidation (s : State) : s.runValidation.runDecode = s.runDecode := by
  rw [State.runDecode, s.runValidation_runValidation, s.runValidation_fb, s.runValidation_frameLen, State.runDecode]

/-- DECODE and PROJECT as commands. -/
theorem runInputs_decode_project (s : State) :
    runInputs (assemble [.command .decode, .command .project]) s = .next (s.runDecode.runProject.withInputs []) := by
  rw [runInputs_command, runInputs_command]
  rfl

/-- VALIDATE, DECODE and PROJECT as commands do the same. -/
theorem runInputs_validate_decode_project (s : State) :
    runInputs (assemble [.command .validate, .command .decode, .command .project]) s =
      .next (s.runDecode.runProject.withInputs []) := by
  rw [runInputs_command, ← s.runDecode_runValidation]
  exact runInputs_decode_project s.runValidation

/-- Settles O52: both sequences are DECODE and PROJECT; PROCESS is so too on a complete frame, and on another it leaves out
the PROJECT, which would find no frame. -/
theorem processIsValidateDecodeProject : Obligations.ProcessIsValidateDecodeProject := by
  intro s
  have hprocess : runInputs (assemble [.command .process]) s = .next ((effect .process s).withInputs []) :=
    runInputs_command .process [] s
  rw [runInputs_validate_decode_project, runInputs_decode_project]
  refine ⟨_, hprocess, fun h => ?complete, fun h => ?wrongLength⟩
  case complete =>
    rw [effect, if_pos h]
    exact ⟨rfl, rfl⟩
  case wrongLength =>
    have hdf : s.runDecode.df = none := s.runDecode_df.trans (decodeFrame_of_ne _ _ h)
    rw [effect, if_neg h, s.runDecode.runProject_of_none hdf]
    exact ⟨rfl, rfl⟩

/-! ### The bytes of a frame, fed in order (R142, R334) -/

/-- What every FRAME_DATA write keeps, a run of them keeps. -/
theorem State.feedAll_keeps {α : Type} (f : State → α) (hf : ∀ s b, f (effect (.wrFrameData b) s) = f s)
    (s : State) (bs : List Byte) : f (s.feedAll bs) = f s := by
  induction bs generalizing s with
  | nil => rfl
  | cons b bs ih => exact (ih _).trans (hf s b)

/-- A FRAME_DATA write counts one byte more, and saturates (R22). -/
theorem effect_wrFrameData_frameLen (s : State) (b : Byte) :
    (effect (.wrFrameData b) s).frameLen.toNat = min (s.frameLen.toNat + 1) 0xFFFF := by
  have hlen : (effect (.wrFrameData b) s).frameLen = nextFrameLen s.frameLen := by simp [effect]
  rw [hlen, nextFrameLen_toNat]

/-- Feeding bytes that fit raises no flag. -/
theorem State.feedAll_err (s : State) (bs : List Byte) (h : s.frameLen.toNat + bs.length ≤ 256) :
    (s.feedAll bs).err = s.err := by
  induction bs generalizing s with
  | nil => rfl
  | cons b bs ih =>
    rw [List.length_cons] at h
    have hlen := effect_wrFrameData_frameLen s b
    have ha : s.appendAddress ≠ none := by
      rw [Ne, s.appendAddress_eq_none_iff]
      omega
    calc (s.feedAll (b :: bs)).err
        = (effect (.wrFrameData b) s).err := ih _ (by omega)
      _ = s.err := (s.storeFrameByte_err b).trans (if_neg ha)

/-- Feeding more bytes changes none of those already in the buffer. -/
theorem State.feedAll_read_of_lt (s : State) (bs : List Byte) (k : Nat) (hk : k < s.frameLen.toNat) :
    (s.feedAll bs).fb.read k = s.fb.read k := by
  induction bs generalizing s with
  | nil => rfl
  | cons b bs ih =>
    have hlen := effect_wrFrameData_frameLen s b
    have hlt := s.frameLen.isLt
    have hne : s.appendAddress ≠ some k := by
      rw [Ne, s.appendAddress_eq_some_iff]
      omega
    calc (s.feedAll (b :: bs)).fb.read k
        = (effect (.wrFrameData b) s).fb.read k := ih _ (by omega)
      _ = s.fb.read k := s.storeFrameByte_read b k hne

/-- The bytes fed stand in the buffer in order, from FRAME_LEN on. -/
theorem State.feedAll_read (s : State) (bs : List Byte) (hwf : s.fb.wf) (h : s.frameLen.toNat + bs.length ≤ 256)
    (k : Nat) (hk : k < bs.length) : (s.feedAll bs).fb.read (s.frameLen.toNat + k) = bs[k] := by
  induction bs generalizing s k with
  | nil => cases hk
  | cons b bs ih =>
    rw [List.length_cons] at h hk
    have hroom : s.frameLen.toNat < 256 := by omega
    have hlen : (effect (.wrFrameData b) s).frameLen.toNat = s.frameLen.toNat + 1 := by
      rw [effect_wrFrameData_frameLen]
      omega
    cases k with
    | zero =>
      calc (s.feedAll (b :: bs)).fb.read s.frameLen.toNat
          = (effect (.wrFrameData b) s).fb.read s.frameLen.toNat :=
            State.feedAll_read_of_lt _ bs _ (by omega)
        _ = b := s.storeFrameByte_read_same b _ ((s.appendAddress_eq_some_iff _).mpr ⟨hroom, rfl⟩) hwf
    | succ k =>
      have hnext := ih (effect (.wrFrameData b) s) (s.storeFrameByte_wf b hwf) (by omega) k (by omega)
      rwa [hlen, Nat.add_assoc, Nat.add_comm 1 k] at hnext

/-! ### The per-frame sequence (R334) -/

/-- The state after FRAME_CLEAR and the bytes in order. -/
def State.loadFrame (s : State) (bs : List Byte) : State := s.clearFrame.feedAll bs

@[simp] theorem State.loadFrame_crcAcc (s : State) (bs : List Byte) : (s.loadFrame bs).crcAcc = s.crcAcc :=
  State.feedAll_keeps (·.crcAcc) (by simp [effect]) _ bs
@[simp] theorem State.loadFrame_errOpc (s : State) (bs : List Byte) : (s.loadFrame bs).errOpc = s.errOpc :=
  State.feedAll_keeps (·.errOpc) (by simp [effect]) _ bs
@[simp] theorem State.loadFrame_reads (s : State) (bs : List Byte) : (s.loadFrame bs).reads = s.reads :=
  State.feedAll_keeps (·.reads) (by simp [effect]) _ bs
@[simp] theorem State.loadFrame_sum (s : State) (bs : List Byte) : (s.loadFrame bs).sum = s.sum :=
  State.feedAll_keeps (·.sum) (by simp [effect]) _ bs
@[simp] theorem State.loadFrame_sumSeq (s : State) (bs : List Byte) : (s.loadFrame bs).sumSeq = s.sumSeq :=
  State.feedAll_keeps (·.sumSeq) (by simp [effect]) _ bs
@[simp] theorem State.loadFrame_out (s : State) (bs : List Byte) : (s.loadFrame bs).out = s.out :=
  State.feedAll_keeps (·.out) (by simp [effect]) _ bs

/-- FRAME_LEN is the number of bytes loaded, saturated. -/
theorem State.loadFrame_frameLen (s : State) (bs : List Byte) :
    (s.loadFrame bs).frameLen.toNat = min bs.length 0xFFFF := by
  rw [State.loadFrame, State.feedAll_frameLen, State.clearFrame_frameLen, BitVec.toNat_zero, Nat.zero_add]

/-- Saturation makes no other list look complete. -/
theorem State.loadFrame_frameLen_eq_256_iff (s : State) (bs : List Byte) :
    (s.loadFrame bs).frameLen.toNat = 256 ↔ bs.length = 256 := by
  rw [s.loadFrame_frameLen]
  omega

/-- Loading a frame that fits raises no flag. -/
theorem State.loadFrame_err (s : State) (bs : List Byte) (h : bs.length ≤ 256) : (s.loadFrame bs).err = s.err :=
  s.clearFrame.feedAll_err bs (by simpa using h)

/-- The buffer holds the bytes loaded. -/
theorem State.loadFrame_read (s : State) (bs : List Byte) (h : bs.length ≤ 256) (k : Nat) (hk : k < bs.length) :
    (s.loadFrame bs).fb.read k = bs[k] := by
  have hread := s.clearFrame.feedAll_read bs Memory.wf_nil (by simpa using h) k hk
  rwa [State.clearFrame_frameLen, BitVec.toNat_zero, Nat.zero_add] at hread

/-- The checked slice of a loaded frame is the list's first bytes. -/
theorem State.loadFrame_sliceList (s : State) (bs : List Byte) (h : bs.length ≤ 256) (n : Nat) (hn : n ≤ bs.length) :
    sliceList (s.loadFrame bs).fb 0 n = bs.take n := by
  refine List.ext_getElem (by simpa using hn) fun k hk _ => ?_
  rw [sliceList_length] at hk
  rw [sliceList_getElem, Nat.zero_add, List.getElem_take, s.loadFrame_read bs h k (by omega)]

/-- The sequence of R334 loads the frame and then processes it. -/
theorem runInputs_frameSequence (s : State) (bs : List Byte) :
    runInputs (assemble (.command .frameClear :: bs.map .feed ++ [.command .process])) s =
      .next ((effect .process (s.loadFrame bs)).withInputs []) := by
  rw [List.cons_append, runInputs_command, assemble_append, runInputs_feeds]
  exact runInputs_command .process [] (s.loadFrame bs)

/-- A validation of a complete frame raises CRC_MISMATCH exactly if the verdict is negative (R182). -/
theorem State.runValidation_err_of_eq (s : State) (h : s.frameLen.toNat = 256) :
    s.runValidation.err =
      if (validate s.fb s.frameLen).checksumValid = true then s.err else s.err ||| 0x02#8 := by
  rw [State.runValidation, State.flagVerdict_err, validate_lengthOk, decide_eq_true h]
  cases (validate s.fb s.frameLen).checksumValid <;> rfl

/-- PROCESS touches neither the checksum stream nor the rejected opcode, and reads nothing. -/
theorem effect_process_keeps (s : State) :
    (effect .process s).crcAcc = s.crcAcc ∧ (effect .process s).errOpc = s.errOpc ∧
      (effect .process s).reads = s.reads := by
  obtain h | ⟨d, h⟩ := effect_process_cases s
  all_goals rw [h]; simp

/-- Settles O51: PROCESS on the loaded frame.  With 256 bytes it publishes the decoding of a buffer that holds them; any
other number leaves another FRAME_LEN, on which it decodes nothing and raises LEN_ERR. -/
theorem frameSequenceDeliversSummary : Obligations.FrameSequenceDeliversSummary := by
  intro s bs
  obtain ⟨hcrc, hopc, hreads⟩ := effect_process_keeps (s.loadFrame bs)
  refine ⟨_, runInputs_frameSequence s bs, hcrc.trans (s.loadFrame_crcAcc bs), hopc.trans (s.loadFrame_errOpc bs),
    hreads.trans (s.loadFrame_reads bs), fun h => ?complete, fun h => ?wrongLength⟩
  case complete =>
    have hlen := (s.loadFrame_frameLen_eq_256_iff bs).mpr h
    have hlen16 : (s.loadFrame bs).frameLen = 256#16 := BitVec.eq_of_toNat_eq hlen
    have hread := s.loadFrame_read bs h.le
    have hverdict := validate_checksumValid_iff (s.loadFrame bs).fb
    rw [hread 254 (by omega), hread 255 (by omega), s.loadFrame_sliceList bs h.le 254 (by omega), ← hlen16] at hverdict
    have herr := (s.loadFrame bs).runValidation_err_of_eq hlen
    rw [s.loadFrame_err bs h.le] at herr
    rw [← exec_next (exec_process_of_eq _ hlen)]
    refine ⟨decodeFields (s.loadFrame bs).fb _, fun k hk => ?buffer, ?length, ?decoded, ?fields, hverdict, herr, rfl,
      by simp, by simp⟩
    case buffer => simpa using hread k (by omega)
    case length => simpa using hlen16
    case decoded => simpa using decodeFrame_of_eq _ _ hlen
    case fields => simp [decodeFields]
  case wrongLength =>
    have hlen := (s.loadFrame_frameLen_eq_256_iff bs).not.mpr h
    rw [← exec_next (exec_process_of_ne _ hlen)]
    refine ⟨?_, ?_, by simp, by simp, by simp⟩
    · simpa using decodeFrame_of_ne _ _ hlen
    · simp [State.runValidation_err_of_ne _ hlen]

/-! ### How long the results last (R336) -/

/-- A step with an input waiting resets the engine, or runs an instruction other than RESET. -/
theorem step_pending_cases {s t : State} {x : HostInput} {rest : List HostInput} (hp : s.pending = x :: rest)
    (h : step s = .next t) :
    (Resets x ∧ t = (s.withInputs rest).toReset) ∨ ∃ i, i ≠ .reset ∧ Runs x i ∧ t = effect i (s.withInputs rest) := by
  obtain ⟨hnil, -⟩ | ⟨y, rest', hp', hstep⟩ := step_input_cases h
  · rw [hp] at hnil
    cases hnil
  · obtain ⟨rfl, rfl⟩ := List.cons.inj (hp.symm.trans hp')
    exact hstep

/-- A decoded frame that is current is what a DECODE would give again (R38 items 1 and 2). -/
theorem FrameInv.decodeFrame_of_some {s : State} (h : FrameInv s) {d : DecodedFrame} (hd : s.df = some d) :
    decodeFrame s.fb s.frameLen = some d := by
  obtain ⟨h256, v, hv, -, rfl⟩ := h.decodedViewCurrent d hd
  rw [decodeFrame_of_eq _ _ h256, ← h.verdictCurrent v hv]

/-- VR and DF outlast every transaction but RESET, FRAME_CLEAR and the FRAME_DATA writes: what VALIDATE, DECODE and
PROCESS put in their place is the same again. -/
theorem effect_keeps_results {i : Instr} {s : State} (h : FrameInv s) (hreset : i ≠ .reset) (hclear : i ≠ .frameClear)
    (hdata : ∀ d, i ≠ .wrFrameData d) :
    (∀ v, s.vr = some v → (effect i s).vr = some v) ∧ ∀ d, s.df = some d → (effect i s).df = some d := by
  have revalidated (v) (hv : s.vr = some v) : some (validate s.fb s.frameLen) = some v :=
    congrArg some (h.verdictCurrent v hv).symm
  obtain hf | hf | hf | ⟨hi, -⟩ | ⟨d, hi, -⟩ := effect_frame_cases i s
  · rw [hf.vr, hf.df]
    exact ⟨fun _ => id, fun _ => id⟩
  · rw [hf.vr, hf.df]
    exact ⟨revalidated, fun _ => id⟩
  · rw [hf.vr, hf.df]
    exact ⟨revalidated, fun _ => h.decodeFrame_of_some⟩
  · exact absurd hi (not_or.mpr ⟨hreset, hclear⟩)
  · exact absurd hi (hdata d)

/-- An input that ends the results leaves neither a verdict nor a decoded frame. -/
theorem step_endsResults {s t : State} {x : HostInput} {rest : List HostInput} (hp : s.pending = x :: rest)
    (h : step s = .next t) (hx : EndsResults x) : t.vr = none ∧ t.df = none := by
  obtain ⟨-, rfl⟩ | ⟨i, hi, hrun, rfl⟩ := step_pending_cases hp h
  · exact ⟨rfl, rfl⟩
  · obtain hr | hclear | ⟨d, hdata⟩ := hx
    · exact absurd hr (not_resets_of_runs hrun hi)
    · obtain rfl := runs_unique hrun hclear
      exact ⟨rfl, rfl⟩
    · obtain rfl := runs_unique hrun hdata
      exact ⟨rfl, rfl⟩

/-- Settles O45: an input that ends the results leaves VR and DF absent, and their registers read so; any other keeps
them, and what is no reset keeps SUM or publishes. -/
theorem resultLifetimes : Obligations.ResultLifetimes := by
  intro s t x rest hinv hp h
  refine ⟨fun hx => ?ends, fun hx => ?keeps, fun hx z hz => ?summary⟩
  case ends =>
    obtain ⟨hvr, hdf⟩ := step_endsResults hp h hx
    exact ⟨hvr, hdf, statusByte_low_of_no_results hvr hdf, readsZero_val_of_none hvr, readsZero_dec_of_none hdf⟩
  case keeps =>
    obtain ⟨hr, -⟩ | ⟨i, hi, hrun, rfl⟩ := step_pending_cases hp h
    · exact absurd (.inl hr) hx
    · refine effect_keeps_results (hinv.withInputs rest).frame hi ?_ ?_
      · rintro rfl
        exact hx (.inr (.inl hrun))
      · rintro d rfl
        exact hx (.inr (.inr ⟨d, hrun⟩))
  case summary =>
    obtain ⟨hr, -⟩ | ⟨i, hi, -, rfl⟩ := step_pending_cases hp h
    · exact absurd hr hx
    · obtain hk | ⟨d, hd⟩ := effect_output_cases i (s.withInputs rest) hi
      · exact .inl (hk.sum.trans hz)
      · exact .inr ⟨_, hd.sum, hd.out⟩

end Sys2Proof.Machine
